-- ==== Sys2Proof/Word.lean ====
section
/-! DEFINITION. The widths of the block's bit vectors: a byte of DBUF, a bus or command word, a value
register, a window offset. -/

namespace Sys2Proof

/-- One byte of the DER buffer (10_state.md R27). -/
abbrev Byte := BitVec 8

/-- One 32-bit word: a command word, a bus word, a control register (20_memory.md R52, 30_encoding.md R80). -/
abbrev Word32 := BitVec 32

/-- The contents of one value register (10_state.md R24). -/
abbrev Word256 := BitVec 256

/-- An offset inside the 4096-byte register window (20_memory.md R50, R51). -/
abbrev Offset := BitVec 12

end Sys2Proof
end

