-- ==== Sys2Proof/Syntax.lean ====
section
/-! DEFINITION. The command set: one constructor of Instr per row of spec/opcode_table.json, its operands in
the order of the row's syntax column (30_encoding.md R84, R88), and the names of the error codes
(60_exceptions.md R171). -/

namespace Sys2Proof

/-- The number of a value register, V0 to V15 (10_state.md R24, 30_encoding.md R81). -/
abbrev VReg := Fin 16

/-- The number of a point register, P0 to P15 (10_state.md R25, 30_encoding.md R81). -/
abbrev PReg := Fin 16

/-- What SEL selects in a modular command: 0 is p, 1 is n (30_encoding.md R82, 40_field.md R100). -/
inductive Modulus where
  | p
  | n
deriving DecidableEq, Repr

/-- What SEL selects in PMUL: 0 to 3 in this order (30_encoding.md R82, 42_scalar_mult.md R141). -/
inductive Algorithm where
  | ref
  | naf
  | ladder
  | zsd
deriving DecidableEq, Repr

/-- What IMM[2:0] selects in LDC: 0 to 7 in this order (40_field.md R112). -/
inductive CurveConst where
  | p
  | n
  | halfN
  | gx
  | gy
  | b
  | h
  | a
deriving DecidableEq, Repr

/-- The commands of 30_encoding.md R84. An immediate is the unsigned number its field holds (R83). -/
inductive Instr where
  | nop
  | madd (m : Modulus) (vd va vb : VReg)
  | msub (m : Modulus) (vd va vb : VReg)
  | mmul (m : Modulus) (vd va vb : VReg)
  | msqr (m : Modulus) (vd va : VReg)
  | minv (m : Modulus) (vd va : VReg)
  | mneg (m : Modulus) (vd va : VReg)
  | mred (m : Modulus) (vd va : VReg)
  | mov (vd va : VReg)
  | ldi (vd : VReg) (imm : Nat)
  | ldc (vd : VReg) (c : CurveConst)
  | cmp (va vb : VReg)
  | pld (pd : PReg) (va vb : VReg)
  | pinf (pd : PReg)
  | pgen (pd : PReg)
  | px (vd : VReg) (pa : PReg)
  | py (vd : VReg) (pa : PReg)
  | padd (pd pa pb : PReg)
  | pdbl (pd pa : PReg)
  | ptpl (pd pa pb : PReg)
  | pneg (pd pa : PReg)
  | pnorm (pd pa : PReg)
  | ppow2 (pd pa : PReg) (count : Nat)
  | peq (pa pb : PReg)
  | pmul (alg : Algorithm) (pd pa : PReg) (vb : VReg)
  | denc (va vb : VReg)
  | ddec (vd va : VReg)
  | lows (vd va : VReg)
  | schk (va vb : VReg)
deriving DecidableEq, Repr

/-- The causes of an error completion, codes 0x01 to 0x09 of 60_exceptions.md R171; code 0x00 (NONE) is the
absence of a cause, and 0x0A to 0xFF are never produced, so they have no name here. -/
inductive ErrorCode where
  | illegalOpcode
  | illegalField
  | operandConflict
  | operandRange
  | notInvertible
  | notOnCurve
  | pointAtInfinity
  | derFormat
  | derOverflow
deriving DecidableEq, Repr

end Sys2Proof
end

