-- ==== Sys2Proof/WellFormed.lean ====
section
/-! DEFINITION. Which terms of Instr are commands: those whose immediate fits the 12-bit field IMM
(30_encoding.md R83). Register numbers, SEL and the constant index of LDC are in range by their types. -/

namespace Sys2Proof

/-- The number fits IMM, a 12-bit unsigned field (30_encoding.md R83). -/
def fitsImm (k : Nat) : Bool := decide (k < 4096)

/-- The command can be encoded: LDI's immediate (40_field.md R111) and PPOW2's count (41_point.md R133) are
0 to 4095. DDEC with RD = RA is well-formed: it decodes, and raises OPERAND_CONFLICT when it executes
(43_der.md R153). -/
def Instr.wellFormed : Instr → Bool
  | .ldi _ imm => fitsImm imm
  | .ppow2 _ _ count => fitsImm count
  | .nop => true
  | .madd _ _ _ _ => true
  | .msub _ _ _ _ => true
  | .mmul _ _ _ _ => true
  | .msqr _ _ _ => true
  | .minv _ _ _ => true
  | .mneg _ _ _ => true
  | .mred _ _ _ => true
  | .mov _ _ => true
  | .ldc _ _ => true
  | .cmp _ _ => true
  | .pld _ _ _ => true
  | .pinf _ => true
  | .pgen _ => true
  | .px _ _ => true
  | .py _ _ => true
  | .padd _ _ _ => true
  | .pdbl _ _ => true
  | .ptpl _ _ _ => true
  | .pneg _ _ => true
  | .pnorm _ _ => true
  | .peq _ _ => true
  | .pmul _ _ _ _ => true
  | .denc _ _ => true
  | .ddec _ _ => true
  | .lows _ _ => true
  | .schk _ _ => true

end Sys2Proof
end

