-- ==== Sys2Proof/Decode.lean ====
section
/-! DEFINITION. The decoder, total on every 32-bit command word and rejecting by the error codes of
30_encoding.md R85, the opcode map it reads (R84), and the encoder written from the same map. -/

namespace Sys2Proof

/-! ## Fields of a command word (30_encoding.md R80) -/

def opcField (w : Word32) : BitVec 6 := w.extractLsb' 26 6
def rdField (w : Word32) : Fin 16 := (w.extractLsb' 22 4).toFin
def raField (w : Word32) : Fin 16 := (w.extractLsb' 18 4).toFin
def rbField (w : Word32) : Fin 16 := (w.extractLsb' 14 4).toFin
def selField (w : Word32) : BitVec 2 := w.extractLsb' 12 2
def immField (w : Word32) : BitVec 12 := w.extractLsb' 0 12

/-- SEL of a modular command; its bit 1 is zero in every word its row's mask admits (30_encoding.md R82). -/
def modulusOfSel (sel : BitVec 2) : Modulus := if sel.toNat % 2 = 1 then .n else .p

def selOfModulus : Modulus → BitVec 2
  | .p => 0
  | .n => 1

/-- SEL of PMUL; all four values are legal (30_encoding.md R82). -/
def algorithmOfSel (sel : BitVec 2) : Algorithm :=
  match sel.toNat with
  | 0 => .ref
  | 1 => .naf
  | 2 => .ladder
  | _ => .zsd

def selOfAlgorithm : Algorithm → BitVec 2
  | .ref => 0
  | .naf => 1
  | .ladder => 2
  | .zsd => 3

/-- IMM[2:0] of LDC (30_encoding.md R83, 40_field.md R112). -/
def constOfImm (imm : BitVec 12) : CurveConst :=
  match imm.toNat % 8 with
  | 0 => .p
  | 1 => .n
  | 2 => .halfN
  | 3 => .gx
  | 4 => .gy
  | 5 => .b
  | 6 => .h
  | _ => .a

def immOfConst : CurveConst → BitVec 12
  | .p => 0
  | .n => 1
  | .halfN => 2
  | .gx => 3
  | .gy => 4
  | .b => 5
  | .h => 6
  | .a => 7

/-! ## The opcode map (30_encoding.md R84) -/

/-- One row: its OPC, its match and mask, and the command a word of the row is. -/
structure Row where
  opc : BitVec 6
  pattern : Word32
  mask : Word32
  make : Word32 → Instr

def systemRows : List Row :=
  [ ⟨0x00, 0x00000000, 0xFFFFFFFF, fun _ => .nop⟩ ]

def modularRows : List Row :=
  [ ⟨0x01, 0x04000000, 0xFC002FFF,
      fun w => .madd (modulusOfSel (selField w)) (rdField w) (raField w) (rbField w)⟩,
    ⟨0x02, 0x08000000, 0xFC002FFF,
      fun w => .msub (modulusOfSel (selField w)) (rdField w) (raField w) (rbField w)⟩,
    ⟨0x03, 0x0C000000, 0xFC002FFF,
      fun w => .mmul (modulusOfSel (selField w)) (rdField w) (raField w) (rbField w)⟩,
    ⟨0x04, 0x10000000, 0xFC03EFFF,
      fun w => .msqr (modulusOfSel (selField w)) (rdField w) (raField w)⟩,
    ⟨0x05, 0x14000000, 0xFC03EFFF,
      fun w => .minv (modulusOfSel (selField w)) (rdField w) (raField w)⟩,
    ⟨0x06, 0x18000000, 0xFC03EFFF,
      fun w => .mneg (modulusOfSel (selField w)) (rdField w) (raField w)⟩,
    ⟨0x07, 0x1C000000, 0xFC03EFFF,
      fun w => .mred (modulusOfSel (selField w)) (rdField w) (raField w)⟩ ]

def registerRows : List Row :=
  [ ⟨0x08, 0x20000000, 0xFC03FFFF, fun w => .mov (rdField w) (raField w)⟩,
    ⟨0x09, 0x24000000, 0xFC3FF000, fun w => .ldi (rdField w) (immField w).toNat⟩,
    ⟨0x0A, 0x28000000, 0xFC3FFFF8, fun w => .ldc (rdField w) (constOfImm (immField w))⟩,
    ⟨0x0B, 0x2C000000, 0xFFC03FFF, fun w => .cmp (raField w) (rbField w)⟩ ]

def pointLoadRows : List Row :=
  [ ⟨0x10, 0x40000000, 0xFC003FFF, fun w => .pld (rdField w) (raField w) (rbField w)⟩,
    ⟨0x11, 0x44000000, 0xFC3FFFFF, fun w => .pinf (rdField w)⟩,
    ⟨0x12, 0x48000000, 0xFC3FFFFF, fun w => .pgen (rdField w)⟩,
    ⟨0x13, 0x4C000000, 0xFC03FFFF, fun w => .px (rdField w) (raField w)⟩,
    ⟨0x14, 0x50000000, 0xFC03FFFF, fun w => .py (rdField w) (raField w)⟩ ]

def pointArithmeticRows : List Row :=
  [ ⟨0x15, 0x54000000, 0xFC003FFF, fun w => .padd (rdField w) (raField w) (rbField w)⟩,
    ⟨0x16, 0x58000000, 0xFC03FFFF, fun w => .pdbl (rdField w) (raField w)⟩,
    ⟨0x17, 0x5C000000, 0xFC003FFF, fun w => .ptpl (rdField w) (raField w) (rbField w)⟩,
    ⟨0x18, 0x60000000, 0xFC03FFFF, fun w => .pneg (rdField w) (raField w)⟩,
    ⟨0x19, 0x64000000, 0xFC03FFFF, fun w => .pnorm (rdField w) (raField w)⟩,
    ⟨0x1A, 0x68000000, 0xFC03F000, fun w => .ppow2 (rdField w) (raField w) (immField w).toNat⟩,
    ⟨0x1B, 0x6C000000, 0xFFC03FFF, fun w => .peq (raField w) (rbField w)⟩,
    ⟨0x20, 0x80000000, 0xFC000FFF,
      fun w => .pmul (algorithmOfSel (selField w)) (rdField w) (raField w) (rbField w)⟩ ]

def signatureRows : List Row :=
  [ ⟨0x28, 0xA0000000, 0xFFC03FFF, fun w => .denc (raField w) (rbField w)⟩,
    ⟨0x29, 0xA4000000, 0xFC03FFFF, fun w => .ddec (rdField w) (raField w)⟩,
    ⟨0x30, 0xC0000000, 0xFC03FFFF, fun w => .lows (rdField w) (raField w)⟩,
    ⟨0x31, 0xC4000000, 0xFFC03FFF, fun w => .schk (raField w) (rbField w)⟩ ]

/-- The complete opcode map; an OPC in no row is reserved (30_encoding.md R84, R86). -/
def opcodeMap : List Row :=
  systemRows ++ modularRows ++ registerRows ++ pointLoadRows ++ pointArithmeticRows ++ signatureRows

def rowOf (opc : BitVec 6) : Option Row :=
  opcodeMap.find? fun r => r.opc == opc

/-- Decode(w) of 30_encoding.md R85: the OPC first, then the must-be-zero bits. -/
def decode (w : Word32) : Except ErrorCode Instr :=
  match rowOf (opcField w) with
  | none => .error .illegalOpcode
  | some r => if w &&& r.mask = r.pattern then .ok (r.make w) else .error .illegalField

/-! ## The encoder (30_encoding.md R80, R84) -/

/-- The word with these fields (30_encoding.md R80). -/
def cmdWord (opc : BitVec 6) (rd ra rb : Fin 16) (sel : BitVec 2) (imm : BitVec 12) : Word32 :=
  opc ++ (BitVec.ofFin rd : BitVec 4) ++ (BitVec.ofFin ra : BitVec 4) ++ (BitVec.ofFin rb : BitVec 4) ++ sel ++ imm

/-- The word of a well-formed command; an unused field is zero (30_encoding.md R80). -/
def encode : Instr → Word32
  | .nop => cmdWord 0x00 0 0 0 0 0
  | .madd m d a b => cmdWord 0x01 d a b (selOfModulus m) 0
  | .msub m d a b => cmdWord 0x02 d a b (selOfModulus m) 0
  | .mmul m d a b => cmdWord 0x03 d a b (selOfModulus m) 0
  | .msqr m d a => cmdWord 0x04 d a 0 (selOfModulus m) 0
  | .minv m d a => cmdWord 0x05 d a 0 (selOfModulus m) 0
  | .mneg m d a => cmdWord 0x06 d a 0 (selOfModulus m) 0
  | .mred m d a => cmdWord 0x07 d a 0 (selOfModulus m) 0
  | .mov d a => cmdWord 0x08 d a 0 0 0
  | .ldi d imm => cmdWord 0x09 d 0 0 0 (BitVec.ofNat 12 imm)
  | .ldc d c => cmdWord 0x0A d 0 0 0 (immOfConst c)
  | .cmp a b => cmdWord 0x0B 0 a b 0 0
  | .pld d a b => cmdWord 0x10 d a b 0 0
  | .pinf d => cmdWord 0x11 d 0 0 0 0
  | .pgen d => cmdWord 0x12 d 0 0 0 0
  | .px d a => cmdWord 0x13 d a 0 0 0
  | .py d a => cmdWord 0x14 d a 0 0 0
  | .padd d a b => cmdWord 0x15 d a b 0 0
  | .pdbl d a => cmdWord 0x16 d a 0 0 0
  | .ptpl d a b => cmdWord 0x17 d a b 0 0
  | .pneg d a => cmdWord 0x18 d a 0 0 0
  | .pnorm d a => cmdWord 0x19 d a 0 0 0
  | .ppow2 d a count => cmdWord 0x1A d a 0 0 (BitVec.ofNat 12 count)
  | .peq a b => cmdWord 0x1B 0 a b 0 0
  | .pmul alg d a b => cmdWord 0x20 d a b (selOfAlgorithm alg) 0
  | .denc a b => cmdWord 0x28 0 a b 0 0
  | .ddec d a => cmdWord 0x29 d a 0 0 0
  | .lows d a => cmdWord 0x30 d a 0 0 0
  | .schk a b => cmdWord 0x31 0 a b 0 0

/-- A command word from a number of `nbits` bits, bit 0 the least significant. The word is written to CMD
whole (10_state.md R32), so no byte order enters. -/
def wordOfTable (nbits w : Nat) : Word32 := BitVec.ofNat 32 (w % 2 ^ nbits)

/-- What the decoder reads from an instruction numbered as spec/opcode_table.json numbers its bits. -/
def decodeTableWord (nbits w : Nat) : Option Instr :=
  match decode (wordOfTable nbits w) with
  | .ok i => some i
  | .error _ => none

end Sys2Proof
end

