-- ==== Sys2Proof/Config.lean ====
section
/-! DEFINITION. What is fixed for the block: the secp256k1 constants of 00_scope.md R3, the value of the ID
register, and the size of DBUF. The OPEN parameters (BASE, BUS_PROTOCOL, LAT, COORD_IMPL, IRQ routing) are
observed by no rule and stand in NOTES.md under Scope. -/

namespace Sys2Proof.Config

/-- The field modulus p (00_scope.md R3). -/
def p : Nat := 0xFFFFFFFFFFFFFFFFFFFFFFFFFFFFFFFFFFFFFFFFFFFFFFFFFFFFFFFEFFFFFC2F

/-- The group order n (00_scope.md R3). -/
def n : Nat := 0xFFFFFFFFFFFFFFFFFFFFFFFFFFFFFFFEBAAEDCE6AF48A03BBFD25E8CD0364141

/-- HALFN = (n - 1) / 2 (00_scope.md R3). -/
def halfN : Nat := 0x7FFFFFFFFFFFFFFFFFFFFFFFFFFFFFFF5D576E7357A4501DDFE92F46681B20A0

/-- The x-coordinate of the generator (00_scope.md R3). -/
def gx : Nat := 0x79BE667EF9DCBBAC55A06295CE870B07029BFCDB2DCE28D959F2815B16F81798

/-- The y-coordinate of the generator (00_scope.md R3). -/
def gy : Nat := 0x483ADA7726A3C4655DA4FBFC0E1108A8FD17B448A68554199C47D08FFB10D4B8

/-- The curve coefficient a (00_scope.md R3). -/
def a : Nat := 0

/-- The curve coefficient b (00_scope.md R3). -/
def b : Nat := 7

/-- The cofactor h (00_scope.md R3). -/
def h : Nat := 1

/-- The value of the ID register (10_state.md R31). -/
def idWord : Word32 := 0x45430001#32

end Sys2Proof.Config
end

