-- ==== Sys2Proof/Machine/State.lean ====
section
/-! DEFINITION. The state of the block (10_state.md R36), the traffic at its ports, the reasons a step can stop,
and the state after reset (70_reset_and_hazards.md R191). -/

namespace Sys2Proof.Machine

/-- The value of a point register: O, or Aff(x, y) with coordinates in [0, p) (00_scope.md R15, 10_state.md R25).
The range and the curve equation are an invariant of the machine, stated in Safety.lean. -/
inductive Point where
  | infinity
  | affine (x y : Nat)
deriving DecidableEq, Repr

/-- The width of a host access; the window takes only 32 bits (20_memory.md R52). -/
inductive AccessWidth where
  | bits8
  | bits16
  | bits32
deriving DecidableEq, Repr

/-- Whether an access reads, or writes a word (20_memory.md R50). -/
inductive AccessKind where
  | read
  | write (data : Word32)
deriving DecidableEq, Repr

/-- One request at the bus slave port: kind, offset, width, byte enables (20_memory.md R50, R52). -/
structure BusAccess where
  kind : AccessKind
  offset : Offset
  width : AccessWidth
  byteEnables : BitVec 4
deriving DecidableEq, Repr

/-- The OK/ERROR response of the port (20_memory.md R50). -/
inductive BusStatus where
  | ok
  | error
deriving DecidableEq, Repr

/-- The port's answer to one access: the response, and the read data if the access was a read. -/
structure BusResponse where
  status : BusStatus
  data : Option Word32
deriving DecidableEq, Repr

/-- One move at the block: a host access is served, ENGINE gets its turn, or the input rst_n falls or rises
(20_memory.md R64, 60_exceptions.md R176, 70_reset_and_hazards.md R190). -/
inductive Turn where
  | host (access : BusAccess)
  | engine
  | rstFalls
  | rstRises
deriving DecidableEq, Repr

/-- The state of the block and of its ports. -/
structure State where
  /-- V0 to V15 (10_state.md R24). -/
  v : Vector Word256 16
  /-- P0 to P15 (10_state.md R25). -/
  p : Vector Point 16
  /-- DBUF[0] to DBUF[79] (10_state.md R27). -/
  dbuf : Vector Byte 80
  /-- DLEN (10_state.md R27, R33). -/
  dlen : BitVec 7
  /-- CTRL.IE (10_state.md R28). -/
  ie : Bool
  /-- STATUS.BUSY (10_state.md R29). -/
  busy : Bool
  /-- STATUS.DONE (10_state.md R29). -/
  done : Bool
  /-- STATUS.ERR (10_state.md R29). -/
  err : Bool
  /-- STATUS.OVR (10_state.md R29). -/
  ovr : Bool
  /-- STATUS.ERRCODE; none is code 0x00 (10_state.md R29, 60_exceptions.md R171). -/
  errcode : Option ErrorCode
  /-- STATUS.Z (10_state.md R29, R30). -/
  flagZ : Bool
  /-- STATUS.EQ. -/
  flagEq : Bool
  /-- STATUS.LT. -/
  flagLt : Bool
  /-- STATUS.FLIP. -/
  flagFlip : Bool
  /-- STATUS.SV. -/
  flagSv : Bool
  /-- STATUS.LOW. -/
  flagLow : Bool
  /-- CMD_LAST, the last accepted command word (10_state.md R32). -/
  cmdLast : Word32
  /-- PENDING, the accepted command ENGINE holds (10_state.md R21, R35). -/
  pending : Option Word32
  /-- The level of the input rst_n (20_memory.md R50, 70_reset_and_hazards.md R190). Model's own field, entry 3. -/
  rstN : Bool
  /-- The moves still to come, oldest first; when there is none, ENGINE moves. Model's own field, entries 1, 2. -/
  schedule : List Turn
  /-- The port's answer to the latest host access. Model's own field, entry 4. -/
  response : Option BusResponse
deriving DecidableEq, Repr

/-- Why the machine stops. -/
inductive Fault where
  /-- Raised by the step when a host access is next while rst_n = 0: the spec gives such an access no move
  (70_reset_and_hazards.md R190, 93_implementation_defined.md). Safe: the machine stops where HOST is assumed not
  to go (entry 5). -/
  | accessDuringReset
deriving DecidableEq, Repr

/-- Why an instruction has no meaning. -/
inductive Refusal where
  /-- Raised by an arm of exec for an instruction that has no meaning yet; no arm raises it now. Safe: the machine
  stops where the hardware goes on. -/
  | notModelled (mnemonic : String)
deriving DecidableEq, Repr

/-- The machine right after reset (70_reset_and_hazards.md R191), rst_n back at 1, HOST silent. -/
def State.reset : State where
  v := Vector.replicate 16 0
  p := Vector.replicate 16 .infinity
  dbuf := Vector.replicate 80 0
  dlen := 0
  ie := false
  busy := false
  done := false
  err := false
  ovr := false
  errcode := none
  flagZ := false
  flagEq := false
  flagLt := false
  flagFlip := false
  flagSv := false
  flagLow := false
  cmdLast := 0
  pending := none
  rstN := true
  schedule := []
  response := none

end Sys2Proof.Machine
end

