-- ==== Sys2Proof/Machine/Ops.lean ====
section
/-! DEFINITION. The named operations on the state: register reads and writes, accepting a command, the two
completions of a command (success, and the error completion that is the block's exception entry), the return from
an error, and reset. -/

namespace Sys2Proof.Machine

/-- What a step or a meaning answers. -/
abbrev Out := Host.Outcome State Fault Refusal

/-! ## Register files (00_scope.md R13) -/

def State.readV (s : State) (i : VReg) : Word256 := s.v[i]
def State.writeV (s : State) (i : VReg) (x : Word256) : State := { s with v := s.v.set i x }
def State.readP (s : State) (i : PReg) : Point := s.p[i]
def State.writeP (s : State) (i : PReg) (A : Point) : State := { s with p := s.p.set i A }

/-- DBUF[0] to DBUF[79] become these bytes, then zeros, and DLEN their number (43_der.md R151). -/
def State.writeDer (s : State) (out : List Byte) : State :=
  { s with dbuf := Vector.ofFn fun j => out.getD j.val 0, dlen := BitVec.ofNat 7 out.length }

/-- DBUF[0] to DBUF[k-1] (43_der.md R152). -/
def State.derBytes (s : State) (k : Nat) : List Byte := s.dbuf.toList.take k

/-! ## A command's life: acceptance, completion (10_state.md R21, R32) -/

/-- A word written to CMD is accepted (10_state.md R32). -/
def State.accept (s : State) (w : Word32) : State :=
  { s with cmdLast := w, pending := some w, busy := true, done := false }

/-- What every completion does (10_state.md R21, 60_exceptions.md R172). -/
def State.complete (s : State) : State :=
  { s with busy := false, done := true, pending := none }

/-- The error completion, the block's one exception entry: ERR and ERRCODE, then the completion; nothing else
(60_exceptions.md R172, R177). -/
def State.errorCompletion (s : State) (c : ErrorCode) : State :=
  { s with err := true, errcode := some c }.complete

/-- A command ends with success in this state. -/
def succeed (s : State) : Out := .next s.complete

/-- raise Error(code) of 00_scope.md R14, given the state as it was before the command. -/
def raiseError (c : ErrorCode) (s : State) : Out := .next (s.errorCompletion c)

/-- The write-one-to-clear bits of STATUS, the return from an error among them (45_system.md R167,
60_exceptions.md R178). -/
def State.clearStatus (s : State) (w : Word32) : State :=
  { s with
    done := s.done && !w.getLsbD 1
    err := s.err && !w.getLsbD 2
    errcode := if w.getLsbD 2 then none else s.errcode
    ovr := s.ovr && !w.getLsbD 3 }

/-! ## Reset -/

/-- Every state element of the block at its reset value; the ports are not the block's (45_system.md R166,
70_reset_and_hazards.md R190, R191). -/
def State.resetBlock (s : State) : State :=
  { State.reset with rstN := s.rstN, schedule := s.schedule, response := s.response }

/-- The IRQ output (10_state.md R34). -/
def State.irq (s : State) : Bool := s.ie && s.done

end Sys2Proof.Machine
end

