-- ==== Sys2Proof/Machine/Bus.lean ====
section
/-! DEFINITION. The register window as HOST sees it (20_memory.md R52 to R57, 10_state.md R28 to R33): its map,
what a read returns, what a write does, the lock while BUSY = 1, and the answer of the port. -/

namespace Sys2Proof.Machine

/-- What stands at an offset that is a multiple of 4 (20_memory.md R53). -/
inductive Region where
  | id
  | ctrl
  | status
  | cmd
  | dlen
  | vWord (i : VReg) (j : Fin 8)
  | dbufWord (j : Fin 20)
  | reserved
deriving DecidableEq, Repr

/-- The register window map (20_memory.md R53, R54, R55). -/
def regionAt (off : Nat) : Region :=
  if off = 0x000 then .id
  else if off = 0x004 then .ctrl
  else if off = 0x008 then .status
  else if off = 0x00C then .cmd
  else if off = 0x010 then .dlen
  else if h : 0x100 ≤ off ∧ off < 0x300 then
    .vWord ⟨(off - 0x100) / 32, by omega⟩ ⟨(off - 0x100) % 32 / 4, by omega⟩
  else if h : 0x400 ≤ off ∧ off < 0x450 then .dbufWord ⟨(off - 0x400) / 4, by omega⟩
  else .reserved

/-- The V window, the DBUF window and DLEN are locked while BUSY = 1 (20_memory.md R57). -/
def isData : Region → Bool
  | .id => false
  | .ctrl => false
  | .status => false
  | .cmd => false
  | .dlen => true
  | .vWord _ _ => true
  | .dbufWord _ => true
  | .reserved => false

def isLocked (r : Region) (s : State) : Bool := isData r && s.busy

/-- A 32-bit access at a multiple of 4 with all byte enables (20_memory.md R52). -/
def isWordAccess (a : BusAccess) : Bool :=
  decide (a.width = .bits32) && decide (a.offset.toNat % 4 = 0) && decide (a.byteEnables = 0b1111#4)

/-! ## Register contents as bus words -/

/-- The code of ERRCODE (60_exceptions.md R171). -/
def errorByte : Option ErrorCode → Byte
  | none => 0x00
  | some .illegalOpcode => 0x01
  | some .illegalField => 0x02
  | some .operandConflict => 0x03
  | some .operandRange => 0x04
  | some .notInvertible => 0x05
  | some .notOnCurve => 0x06
  | some .pointAtInfinity => 0x07
  | some .derFormat => 0x08
  | some .derOverflow => 0x09

def bit (b : Bool) : BitVec 1 := BitVec.ofBool b

/-- STATUS, bit 31 first (10_state.md R29). -/
def statusWord (s : State) : Word32 :=
  0#10 ++ bit s.flagLow ++ bit s.flagSv ++ bit s.flagFlip ++ bit s.flagLt ++ bit s.flagEq ++ bit s.flagZ ++
  errorByte s.errcode ++ 0#4 ++ bit s.ovr ++ bit s.err ++ bit s.done ++ bit s.busy

/-- CTRL, bit 31 first; SRST reads 0 (10_state.md R28). -/
def ctrlWord (s : State) : Word32 := 0#31 ++ bit s.ie

/-- Word j of V[i]: bits 255-32j to 224-32j (20_memory.md R54). -/
def wordOfV (x : Word256) (j : Fin 8) : Word32 := x.extractLsb' (224 - 32 * j.val) 32

/-- V[i] with exactly those bits replaced (20_memory.md R54). -/
def setWordOfV (x : Word256) (j : Fin 8) (w : Word32) : Word256 :=
  (x &&& ~~~(0xFFFFFFFF#256 <<< (224 - 32 * j.val))) ||| (w.zeroExtend 256 <<< (224 - 32 * j.val))

/-- Word j of DBUF, the lowest index in bits 31:24 (20_memory.md R55). -/
def wordOfDbuf (d : Vector Byte 80) (j : Fin 20) : Word32 :=
  d[4 * j.val] ++ d[4 * j.val + 1] ++ d[4 * j.val + 2] ++ d[4 * j.val + 3]

/-- DBUF with those four bytes replaced (20_memory.md R55). -/
def setWordOfDbuf (d : Vector Byte 80) (j : Fin 20) (w : Word32) : Vector Byte 80 :=
  (((d.set (4 * j.val) (w.extractLsb' 24 8)).set (4 * j.val + 1) (w.extractLsb' 16 8)).set (4 * j.val + 2)
    (w.extractLsb' 8 8)).set (4 * j.val + 3) (w.extractLsb' 0 8)

/-! ## Accesses -/

/-- What a read of an unlocked place returns (20_memory.md R53 to R56, 10_state.md R28 to R33). -/
def readRegion (r : Region) (s : State) : Word32 :=
  match r with
  | .id => Config.idWord
  | .ctrl => ctrlWord s
  | .status => statusWord s
  | .cmd => s.cmdLast
  | .dlen => s.dlen.zeroExtend 32
  | .vWord i j => wordOfV (s.readV i) j
  | .dbufWord j => wordOfDbuf s.dbuf j
  | .reserved => 0

/-- A write to CMD: accepted, or refused because of BUSY or ERR (10_state.md R32). -/
def writeCmd (w : Word32) (s : State) : State :=
  if s.busy || s.err then { s with ovr := true } else s.accept w

/-- A write to CTRL: a soft reset, or the interrupt enable (10_state.md R28, 45_system.md R166, R168). -/
def writeCtrl (w : Word32) (s : State) : State :=
  if w.getLsbD 1 then s.resetBlock else { s with ie := w.getLsbD 0 }

/-- What a write to an unlocked place does (20_memory.md R53 to R56, 10_state.md R28 to R33). -/
def writeRegion (r : Region) (w : Word32) (s : State) : State :=
  match r with
  | .id => s
  | .ctrl => writeCtrl w s
  | .status => s.clearStatus w
  | .cmd => writeCmd w s
  | .dlen => { s with dlen := w.extractLsb' 0 7 }
  | .vWord i j => s.writeV i (setWordOfV (s.readV i) j w)
  | .dbufWord j => { s with dbuf := setWordOfDbuf s.dbuf j w }
  | .reserved => s

/-- A read that meets R52: the word, or 0 and OVR if locked (20_memory.md R57). -/
def readWord (r : Region) (s : State) : State :=
  if isLocked r s then { s with ovr := true, response := some ⟨.ok, some 0⟩ }
  else { s with response := some ⟨.ok, some (readRegion r s)⟩ }

/-- A write that meets R52: the write, or dropped with OVR if locked (20_memory.md R57). -/
def writeWord (r : Region) (w : Word32) (s : State) : State :=
  { (if isLocked r s then { s with ovr := true } else writeRegion r w s) with response := some ⟨.ok, none⟩ }

/-- An access that breaks R52: the ERROR response, data 0 for a read, and no effect (20_memory.md R52,
60_exceptions.md R173). -/
def refuseAccess (k : AccessKind) (s : State) : State :=
  match k with
  | .read => { s with response := some ⟨.error, some 0⟩ }
  | .write _ => { s with response := some ⟨.error, none⟩ }

/-- One host access (20_memory.md R52, R60). -/
def State.serve (s : State) (a : BusAccess) : State :=
  if isWordAccess a then
    match a.kind with
    | .read => readWord (regionAt a.offset.toNat) s
    | .write w => writeWord (regionAt a.offset.toNat) w s
  else refuseAccess a.kind s

end Sys2Proof.Machine
end

