-- ==== Sys2Proof/Machine/ModArith.lean ====
section
/-! DEFINITION. Arithmetic modulo m on unbounded integers (00_scope.md R11). -/

namespace Sys2Proof.Machine

/-- a mod m for an integer a and m > 0: the r with 0 <= r < m and m dividing a - r (00_scope.md R11). -/
def modZ (m : Nat) (a : Int) : Nat := (a % (m : Int)).toNat

/-- One bit of the exponent in square-and-multiply, from the most significant bit down. -/
def powModLoop (m b e : Nat) : Nat → Nat → Nat
  | 0, acc => acc
  | i + 1, acc =>
    let sq := acc * acc % m
    powModLoop m b e i (if e.testBit i then sq * b % m else sq)

/-- b ^ e mod m for e < 2 ^ 256. -/
def powMod (m b e : Nat) : Nat := powModLoop m b e 256 (1 % m)

/-- inv_m(a) of 00_scope.md R11. p and n are prime (00_scope.md R3), so a ^ (m - 2) is the inverse (Fermat); that
it is the b of R11 is Laws.modInv_spec. -/
def modInv (m a : Nat) : Nat := powMod m a (m - 2)

/-- The value of a 256-bit register (00_scope.md R10). -/
def word256 (k : Nat) : Word256 := BitVec.ofNat 256 k

end Sys2Proof.Machine
end

