-- ==== Sys2Proof/Machine/Operands.lean ====
section
/-! DEFINITION. Every operand form: the modulus SEL selects, a register read as an element below a modulus with
its range check, LDC's constants, immediates. -/

namespace Sys2Proof.Machine

/-- The modulus SEL selects (40_field.md R100). -/
def modulusValue : Modulus → Nat
  | .p => Config.p
  | .n => Config.n

/-- CONST[c] (40_field.md R112). -/
def constValue : CurveConst → Nat
  | .p => Config.p
  | .n => Config.n
  | .halfN => Config.halfN
  | .gx => Config.gx
  | .gy => Config.gy
  | .b => Config.b
  | .h => Config.h
  | .a => Config.a

/-- zext_256 of an immediate (00_scope.md R10, 30_encoding.md R83). -/
def immValue (imm : Nat) : Word256 := word256 imm

/-- V[i] as an unsigned integer (00_scope.md R10). -/
def State.valueV (s : State) (i : VReg) : Nat := (s.readV i).toNat

/-- Reads V[i] as a value below m and goes on with it, or raises OPERAND_RANGE (40_field.md R101, 41_point.md
R122, 44_lows.md R160). -/
def withBelow (m : Nat) (i : VReg) (s : State) (k : Nat → Out) : Out :=
  if m ≤ s.valueV i then raiseError .operandRange s else k (s.valueV i)

/-- The G of 00_scope.md R3. -/
def generator : Point := .affine Config.gx Config.gy

end Sys2Proof.Machine
end

