-- ==== Sys2Proof/Machine/Flags.lean ====
section
/-! DEFINITION. Every result flag's computation (10_state.md R30) and the ways a command writes a result together
with its flags. -/

namespace Sys2Proof.Machine

/-- STATUS.Z (40_field.md R102, 41_point.md R122 to R133). -/
def State.setZ (s : State) (b : Bool) : State := { s with flagZ := b }

/-- STATUS.EQ and STATUS.LT (40_field.md R113, 41_point.md R134). -/
def State.setCompare (s : State) (eq lt : Bool) : State := { s with flagEq := eq, flagLt := lt }

/-- STATUS.FLIP (44_lows.md R160). -/
def State.setFlip (s : State) (b : Bool) : State := { s with flagFlip := b }

/-- STATUS.SV and STATUS.LOW (44_lows.md R161). -/
def State.setRange (s : State) (sv low : Bool) : State := { s with flagSv := sv, flagLow := low }

/-- V[RD] <- r; STATUS.Z <- (r = 0) (40_field.md R102). -/
def finishModular (vd : VReg) (r : Nat) (s : State) : Out :=
  succeed ((s.writeV vd (word256 r)).setZ (decide (r = 0)))

/-- P[RD] <- R; STATUS.Z <- (R = O) (41_point.md R128). -/
def finishPoint (pd : PReg) (R : Point) (s : State) : Out :=
  succeed ((s.writeP pd R).setZ (decide (R = .infinity)))

/-- 1 <= k <= n - 1 (44_lows.md R161). -/
def inSignatureRange (k : Nat) : Bool := decide (1 ≤ k) && decide (k < Config.n)

end Sys2Proof.Machine
end

