-- ==== Sys2Proof/Machine/Field.lean ====
section
/-! DEFINITION. The commands of the modular arithmetic unit and the value-register commands (40_field.md). Every
operand is read from the state as it was at acceptance, before anything is written (10_state.md R23). -/

namespace Sys2Proof.Machine

/-- MADD (40_field.md R103). -/
def execMadd (m : Modulus) (vd va vb : VReg) (s : State) : Out :=
  withBelow (modulusValue m) va s fun a =>
  withBelow (modulusValue m) vb s fun b =>
  finishModular vd (modZ (modulusValue m) ((a : Int) + b)) s

/-- MSUB (40_field.md R104). -/
def execMsub (m : Modulus) (vd va vb : VReg) (s : State) : Out :=
  withBelow (modulusValue m) va s fun a =>
  withBelow (modulusValue m) vb s fun b =>
  finishModular vd (modZ (modulusValue m) ((a : Int) - b)) s

/-- MMUL (40_field.md R105). -/
def execMmul (m : Modulus) (vd va vb : VReg) (s : State) : Out :=
  withBelow (modulusValue m) va s fun a =>
  withBelow (modulusValue m) vb s fun b =>
  finishModular vd (modZ (modulusValue m) ((a : Int) * b)) s

/-- MSQR (40_field.md R106). -/
def execMsqr (m : Modulus) (vd va : VReg) (s : State) : Out :=
  withBelow (modulusValue m) va s fun a =>
  finishModular vd (modZ (modulusValue m) ((a : Int) * a)) s

/-- MINV (40_field.md R107): the range, then the zero test; Z is written 0. -/
def execMinv (m : Modulus) (vd va : VReg) (s : State) : Out :=
  withBelow (modulusValue m) va s fun a =>
  if a = 0 then raiseError .notInvertible s
  else succeed ((s.writeV vd (word256 (modInv (modulusValue m) a))).setZ false)

/-- MNEG (40_field.md R108). -/
def execMneg (m : Modulus) (vd va : VReg) (s : State) : Out :=
  withBelow (modulusValue m) va s fun a =>
  finishModular vd (modZ (modulusValue m) (0 - (a : Int))) s

/-- MRED (40_field.md R109): no range check. -/
def execMred (m : Modulus) (vd va : VReg) (s : State) : Out :=
  finishModular vd (modZ (modulusValue m) (s.valueV va)) s

/-- MOV (40_field.md R110). -/
def execMov (vd va : VReg) (s : State) : Out :=
  succeed (s.writeV vd (s.readV va))

/-- LDI (40_field.md R111). -/
def execLdi (vd : VReg) (imm : Nat) (s : State) : Out :=
  succeed (s.writeV vd (immValue imm))

/-- LDC (40_field.md R112). -/
def execLdc (vd : VReg) (c : CurveConst) (s : State) : Out :=
  succeed (s.writeV vd (word256 (constValue c)))

/-- CMP (40_field.md R113): raw unsigned values, no check. -/
def execCmp (va vb : VReg) (s : State) : Out :=
  succeed (s.setCompare (decide (s.valueV va = s.valueV vb)) (decide (s.valueV va < s.valueV vb)))

end Sys2Proof.Machine
end

