-- ==== Sys2Proof/Machine/Curve.lean ====
section
/-! DEFINITION. The group law on y^2 = x^3 + 7 (mod p), in affine coordinates (41_point.md R121, R125). -/

namespace Sys2Proof.Machine

/-- a mod p. -/
def modP (k : Int) : Nat := modZ Config.p k

/-- (y^2 - x^3 - 7) mod p = 0, the curve equation as PLD checks it (41_point.md R122, 10_state.md R25). -/
def curveEq (x y : Nat) : Bool :=
  decide (modP ((y : Int) * y - (x : Int) * x * x - (Config.a : Int) * x - Config.b) = 0)

/-- The third point of the line through (x1, y1) with slope l and a point of x-coordinate x2, negated: the last
three lines of both formulas of 41_point.md R121. -/
def chord (l x1 y1 x2 : Nat) : Point :=
  let x3 := modP ((l : Int) * l - x1 - x2)
  .affine x3 (modP ((l : Int) * ((x1 : Int) - x3) - y1))

/-- dbl(A) (41_point.md R121). -/
def dbl : Point → Point
  | .infinity => .infinity
  | .affine x y =>
    if y = 0 then .infinity
    else
      let l := modP ((3 * (x : Int) * x + Config.a) * modInv Config.p (modP (2 * y)))
      chord l x y x

/-- A +E B (41_point.md R121). -/
def addE : Point → Point → Point
  | .infinity, B => B
  | .affine x1 y1, .infinity => .affine x1 y1
  | .affine x1 y1, .affine x2 y2 =>
    if x1 = x2 ∧ modP ((y1 : Int) + y2) = 0 then .infinity
    else if x1 = x2 then dbl (.affine x1 y1)
    else
      let l := modP (((y2 : Int) - y1) * modInv Config.p (modP ((x2 : Int) - x1)))
      chord l x1 y1 x2

/-- -E A (41_point.md R121). -/
def negE : Point → Point
  | .infinity => .infinity
  | .affine x y => .affine x (modP (0 - (y : Int)))

/-- twiceplus(X, Y) = dbl(X) +E Y (41_point.md R130). -/
def twicePlus (X Y : Point) : Point := addE (dbl X) Y

/-- timespow2(X, c): c doublings, one after the other (41_point.md R133). The match only makes each doubling's
result a value before the next one starts: Laws.timesPow2_succ. -/
def timesPow2 : Nat → Point → Point
  | 0, R => R
  | c + 1, R =>
    match dbl R with
    | .infinity => timesPow2 c .infinity
    | .affine x y => timesPow2 c (.affine x y)

end Sys2Proof.Machine
end

