-- ==== Sys2Proof/Machine/PointAdder.lean ====
section
/-! DEFINITION. The commands of the point adder (41_point.md). -/

namespace Sys2Proof.Machine

/-- PLD (41_point.md R122): the x range, the y range, then the curve equation. -/
def execPld (pd : PReg) (va vb : VReg) (s : State) : Out :=
  withBelow Config.p va s fun x =>
  withBelow Config.p vb s fun y =>
  if curveEq x y then succeed ((s.writeP pd (.affine x y)).setZ false) else raiseError .notOnCurve s

/-- PINF (41_point.md R123). -/
def execPinf (pd : PReg) (s : State) : Out :=
  succeed ((s.writeP pd .infinity).setZ true)

/-- PGEN (41_point.md R124). -/
def execPgen (pd : PReg) (s : State) : Out :=
  succeed ((s.writeP pd generator).setZ false)

/-- PX (41_point.md R126). -/
def execPx (vd : VReg) (pa : PReg) (s : State) : Out :=
  match s.readP pa with
  | .infinity => raiseError .pointAtInfinity s
  | .affine x _ => succeed (s.writeV vd (word256 x))

/-- PY (41_point.md R127). -/
def execPy (vd : VReg) (pa : PReg) (s : State) : Out :=
  match s.readP pa with
  | .infinity => raiseError .pointAtInfinity s
  | .affine _ y => succeed (s.writeV vd (word256 y))

/-- PADD (41_point.md R128). -/
def execPadd (pd pa pb : PReg) (s : State) : Out :=
  finishPoint pd (addE (s.readP pa) (s.readP pb)) s

/-- PDBL (41_point.md R129). -/
def execPdbl (pd pa : PReg) (s : State) : Out :=
  finishPoint pd (dbl (s.readP pa)) s

/-- PTPL (41_point.md R130). -/
def execPtpl (pd pa pb : PReg) (s : State) : Out :=
  finishPoint pd (twicePlus (s.readP pa) (s.readP pb)) s

/-- PNEG (41_point.md R131). -/
def execPneg (pd pa : PReg) (s : State) : Out :=
  finishPoint pd (negE (s.readP pa)) s

/-- PNORM (41_point.md R132): architecturally a copy. -/
def execPnorm (pd pa : PReg) (s : State) : Out :=
  finishPoint pd (s.readP pa) s

/-- PPOW2 (41_point.md R133). -/
def execPpow2 (pd pa : PReg) (count : Nat) (s : State) : Out :=
  finishPoint pd (timesPow2 count (s.readP pa)) s

/-- PEQ (41_point.md R134, R125): LT is cleared. -/
def execPeq (pa pb : PReg) (s : State) : Out :=
  succeed (s.setCompare (decide (s.readP pa = s.readP pb)) false)

end Sys2Proof.Machine
end

