-- ==== Sys2Proof/Machine/Multiplier.lean ====
section
/-! DEFINITION. The k-fold sum [k]A (00_scope.md R15) and the four multiplier algorithms of 42_scalar_mult.md
R142 to R146. -/

namespace Sys2Proof.Machine

/-- [k]A, the k-fold sum with [0]A = O (00_scope.md R15): what PMUL's result is, whatever SEL (R141, R147). It
takes k additions, so the machine runs the algorithms below instead. -/
def kFold : Nat → Point → Point
  | 0, _ => .infinity
  | k + 1, A => addE (kFold k A) A

/-- t, the bit length of k (42_scalar_mult.md section 2). -/
def bitLength (k : Nat) : Nat := if k = 0 then 0 else k.log2 + 1

/-! ## REF (42_scalar_mult.md R142) -/

def refLoop (A : Point) (k : Nat) : Nat → Point → Point
  | 0, R => R
  | i + 1, R =>
    let D := dbl R
    refLoop A k i (if k.testBit i then addE D A else D)

def mulRef (k : Nat) (A : Point) : Point := refLoop A k (bitLength k) .infinity

/-! ## NAF (42_scalar_mult.md R143, R144) -/

/-- A digit of the non-adjacent form. -/
inductive Digit where
  | minus
  | zero
  | plus
deriving DecidableEq, Repr

def digitValue : Digit → Int
  | .minus => -1
  | .zero => 0
  | .plus => 1

/-- The recoding loop of R143, least significant digit first, at most `fuel` digits. -/
def nafLoop : Nat → Nat → List Digit
  | 0, _ => []
  | fuel + 1, k =>
    if k = 0 then []
    else if k % 4 = 1 then .plus :: nafLoop fuel ((k - 1) / 2)
    else if k % 4 = 3 then .minus :: nafLoop fuel ((k + 1) / 2)
    else .zero :: nafLoop fuel (k / 2)

/-- naf(k), least significant digit first; L <= t + 1 (R143). -/
def naf (k : Nat) : List Digit := nafLoop (bitLength k + 1) k

/-- The number of zero digits at the head of a digit list, and the rest of the list. -/
def takeZeros : List Digit → Nat × List Digit
  | .zero :: ds => ((takeZeros ds).1 + 1, (takeZeros ds).2)
  | ds => (0, ds)

/-- The runs of a digit list given most significant digit first: each non-zero digit with the number of zero
digits below it (R143). -/
def runsLoop : Nat → List Digit → List (Digit × Nat)
  | 0, _ => []
  | _ + 1, [] => []
  | fuel + 1, .zero :: ds => runsLoop fuel ds
  | fuel + 1, d :: ds => (d, (takeZeros ds).1) :: runsLoop fuel (takeZeros ds).2

def nafRuns (k : Nat) : List (Digit × Nat) :=
  runsLoop (naf k).length (naf k).reverse

/-- One run of R144: twiceplus, then the batched doublings. -/
def nafRun (A R : Point) (run : Digit × Nat) : Point :=
  timesPow2 run.2 (twicePlus R (if run.1 = .plus then A else negE A))

def mulNaf (k : Nat) (A : Point) : Point := (nafRuns k).foldl (nafRun A) .infinity

/-! ## LADDER (42_scalar_mult.md R145) -/

def ladderLoop (k : Nat) : Nat → Point → Point → Point
  | 0, L0, _ => L0
  | i + 1, L0, L1 =>
    if k.testBit i then ladderLoop k i (addE L0 L1) (dbl L1)
    else ladderLoop k i (dbl L0) (addE L1 L0)

def mulLadder (k : Nat) (A : Point) : Point := ladderLoop k (bitLength k) .infinity A

/-! ## ZSD (42_scalar_mult.md R146) -/

/-- s, the index of the lowest set bit of k, for 0 < k < 2 ^ fuel. -/
def lowestSetBitLoop : Nat → Nat → Nat
  | 0, _ => 0
  | fuel + 1, k => if k % 2 = 1 then 0 else lowestSetBitLoop fuel (k / 2) + 1

def lowestSetBit (k : Nat) : Nat := lowestSetBitLoop (bitLength k) k

/-- The loop of R146 for i from s + j down to s + 1. -/
def zsdLoop (A : Point) (k s : Nat) : Nat → Point → Point
  | 0, R => R
  | j + 1, R => zsdLoop A k s j (twicePlus R (if k.testBit (s + 1 + j) then A else negE A))

def mulZsd (k : Nat) (A : Point) : Point :=
  if k = 0 then .infinity
  else
    let s := lowestSetBit k
    timesPow2 s (zsdLoop A k s (bitLength k - (s + 1)) A)

/-- The algorithm SEL selects (42_scalar_mult.md R141). -/
def multiply : Algorithm → Nat → Point → Point
  | .ref => mulRef
  | .naf => mulNaf
  | .ladder => mulLadder
  | .zsd => mulZsd

end Sys2Proof.Machine
end

