-- ==== Sys2Proof/Machine/ScalarMult.lean ====
section
/-! DEFINITION. The scalar-point multiplier command (42_scalar_mult.md R141). -/

namespace Sys2Proof.Machine

/-- PMUL (42_scalar_mult.md R141), by the algorithm SEL selects; that each gives [k]A (R147) is a claim about
`multiply`, not built into the command. -/
def execPmul (alg : Algorithm) (pd pa : PReg) (vb : VReg) (s : State) : Out :=
  finishPoint pd (multiply alg (s.valueV vb) (s.readP pa)) s

end Sys2Proof.Machine
end

