-- ==== Sys2Proof/Machine/Der.lean ====
section
/-! DEFINITION. The DER integer-pair codec over byte lists (43_der.md R150, R151, R152). -/

namespace Sys2Proof.Machine

/-- A number below 256 as a byte. -/
def byte (k : Nat) : Byte := BitVec.ofNat 8 k

/-! ## Encoding -/

/-- The big-endian bytes of v in front of acc, no leading zero byte, for v < 256 ^ fuel. -/
def beMinLoop : Nat → Nat → List Byte → List Byte
  | 0, _, acc => acc
  | fuel + 1, v, acc => if v = 0 then acc else beMinLoop fuel (v / 256) (byte (v % 256) :: acc)

/-- be_min(v), for 0 < v < 2 ^ 256 (00_scope.md R12). -/
def beMin (v : Nat) : List Byte := beMinLoop 32 v []

/-- be_value(bs) (00_scope.md R12). -/
def beValue (bs : List Byte) : Nat := bs.foldl (fun acc b => acc * 256 + b.toNat) 0

/-- The content bytes of a DER integer: c of der_int (43_der.md R150). -/
def derContent (v : Nat) : List Byte :=
  let c := if v = 0 then [0x00#8] else beMin v
  if 0x80 ≤ (c.headD 0).toNat then 0x00#8 :: c else c

/-- der_int(v) (43_der.md R150). -/
def derInt (v : Nat) : List Byte :=
  0x02#8 :: byte (derContent v).length :: derContent v

/-- out of DENC (43_der.md R151). -/
def derEncode (r s : Nat) : List Byte :=
  0x30#8 :: byte (derInt r ++ derInt s).length :: (derInt r ++ derInt s)

/-! ## Decoding: each function takes the bytes from pos on and gives what is left, or the error -/

/-- next() (43_der.md R152). -/
def derNext : List Byte → Except ErrorCode (Byte × List Byte)
  | [] => .error .derFormat
  | b :: rest => .ok (b, rest)

/-- der_len() (43_der.md R152). -/
def derLen (bs : List Byte) : Except ErrorCode (Nat × List Byte) :=
  match derNext bs with
  | .error e => .error e
  | .ok (x, rest) =>
    if x.toNat < 0x80 then .ok (x.toNat, rest)
    else if x = 0x81#8 then
      match derNext rest with
      | .error e => .error e
      | .ok (y, rest') => .ok (y.toNat, rest')
    else .error .derFormat

/-- The checks der_int_dec makes on the content bytes c, and its value (43_der.md R152). DEDUCED (entry 7): a
content of exactly 33 bytes whose first byte is not 00 has a value of 2^256 or more, which no V register holds; it
raises the DER_OVERFLOW that R152 and 60_exceptions.md R171 give such a value. -/
def derContentValue (c : List Byte) : Except ErrorCode Nat :=
  if 0x80 ≤ (c.headD 0).toNat then .error .derFormat
  else if 2 ≤ c.length ∧ c.headD 0 = 0x00#8 ∧ (c.getD 1 0).toNat < 0x80 then .error .derFormat
  else if 33 < c.length then .error .derOverflow
  else if 2 ^ 256 ≤ beValue c then .error .derOverflow
  else .ok (beValue c)

/-- der_int_dec() (43_der.md R152). -/
def derIntDec (bs : List Byte) : Except ErrorCode (Nat × List Byte) :=
  match derNext bs with
  | .error e => .error e
  | .ok (tag, afterTag) =>
    if tag ≠ 0x02#8 then .error .derFormat
    else
      match derLen afterTag with
      | .error e => .error e
      | .ok (len, rest) =>
        if len = 0 ∨ rest.length < len then .error .derFormat
        else
          match derContentValue (rest.take len) with
          | .error e => .error e
          | .ok value => .ok (value, rest.drop len)

/-- The two elements and nothing after them: the last three lines of der_dec (43_der.md R152). -/
def derPair (bs : List Byte) : Except ErrorCode (Nat × Nat) :=
  match derIntDec bs with
  | .error e => .error e
  | .ok (r, afterR) =>
    match derIntDec afterR with
    | .error e => .error e
    | .ok (s, afterS) => if afterS = [] then .ok (r, s) else .error .derFormat

/-- der_dec(b, L) over the L bytes b (43_der.md R152). -/
def derDecode (b : List Byte) : Except ErrorCode (Nat × Nat) :=
  match derNext b with
  | .error e => .error e
  | .ok (tag, afterTag) =>
    if tag ≠ 0x30#8 then .error .derFormat
    else
      match derLen afterTag with
      | .error e => .error e
      | .ok (seqLen, rest) => if seqLen ≠ rest.length then .error .derFormat else derPair rest

end Sys2Proof.Machine
end

