-- ==== Sys2Proof/Machine/Signature.lean ====
section
/-! DEFINITION. The DER codec commands (43_der.md) and the low-S canonicalizer and range check (44_lows.md). -/

namespace Sys2Proof.Machine

/-- DENC (43_der.md R151). -/
def execDenc (va vb : VReg) (s : State) : Out :=
  succeed (s.writeDer (derEncode (s.valueV va) (s.valueV vb)))

/-- DDEC (43_der.md R153): the register conflict, the DLEN bound, then der_dec. -/
def execDdec (vd va : VReg) (s : State) : Out :=
  if vd = va then raiseError .operandConflict s
  else if 80 < s.dlen.toNat then raiseError .derFormat s
  else
    match derDecode (s.derBytes s.dlen.toNat) with
    | .error c => raiseError c s
    | .ok (r, t) => succeed ((s.writeV vd (word256 r)).writeV va (word256 t))

/-- LOWS (44_lows.md R160). -/
def execLows (vd va : VReg) (s : State) : Out :=
  withBelow Config.n va s fun k =>
  if Config.halfN < k then succeed ((s.writeV vd (word256 (Config.n - k))).setFlip true)
  else succeed ((s.writeV vd (word256 k)).setFlip false)

/-- SCHK (44_lows.md R161): raw values, no check. -/
def execSchk (va vb : VReg) (s : State) : Out :=
  succeed (s.setRange (inSignatureRange (s.valueV va) && inSignatureRange (s.valueV vb))
    (decide (s.valueV vb ≤ Config.halfN)))

end Sys2Proof.Machine
end

