-- ==== Sys2Proof/Machine/System.lean ====
section
/-! DEFINITION. The command that does nothing but complete (45_system.md R165). -/

namespace Sys2Proof.Machine

/-- NOP (45_system.md R165). -/
def execNop (s : State) : Out := succeed s

end Sys2Proof.Machine
end

