-- ==== Sys2Proof/Machine/Dispatch.lean ====
section
/-! DEFINITION. One arm per command: the command's execution and completion (10_state.md R21). -/

namespace Sys2Proof.Machine

def exec (i : Instr) (s : State) : Host.Outcome State Fault Refusal :=
  match i with
  | .nop => Sys2Proof.Machine.execNop s
  | .madd m vd va vb => Sys2Proof.Machine.execMadd m vd va vb s
  | .msub m vd va vb => Sys2Proof.Machine.execMsub m vd va vb s
  | .mmul m vd va vb => Sys2Proof.Machine.execMmul m vd va vb s
  | .msqr m vd va => Sys2Proof.Machine.execMsqr m vd va s
  | .minv m vd va => Sys2Proof.Machine.execMinv m vd va s
  | .mneg m vd va => Sys2Proof.Machine.execMneg m vd va s
  | .mred m vd va => Sys2Proof.Machine.execMred m vd va s
  | .mov vd va => Sys2Proof.Machine.execMov vd va s
  | .ldi vd imm => Sys2Proof.Machine.execLdi vd imm s
  | .ldc vd c => Sys2Proof.Machine.execLdc vd c s
  | .cmp va vb => Sys2Proof.Machine.execCmp va vb s
  | .pld pd va vb => Sys2Proof.Machine.execPld pd va vb s
  | .pinf pd => Sys2Proof.Machine.execPinf pd s
  | .pgen pd => Sys2Proof.Machine.execPgen pd s
  | .px vd pa => Sys2Proof.Machine.execPx vd pa s
  | .py vd pa => Sys2Proof.Machine.execPy vd pa s
  | .padd pd pa pb => Sys2Proof.Machine.execPadd pd pa pb s
  | .pdbl pd pa => Sys2Proof.Machine.execPdbl pd pa s
  | .ptpl pd pa pb => Sys2Proof.Machine.execPtpl pd pa pb s
  | .pneg pd pa => Sys2Proof.Machine.execPneg pd pa s
  | .pnorm pd pa => Sys2Proof.Machine.execPnorm pd pa s
  | .ppow2 pd pa count => Sys2Proof.Machine.execPpow2 pd pa count s
  | .peq pa pb => Sys2Proof.Machine.execPeq pa pb s
  | .pmul alg pd pa vb => Sys2Proof.Machine.execPmul alg pd pa vb s
  | .denc va vb => Sys2Proof.Machine.execDenc va vb s
  | .ddec vd va => Sys2Proof.Machine.execDdec vd va s
  | .lows vd va => Sys2Proof.Machine.execLows vd va s
  | .schk va vb => Sys2Proof.Machine.execSchk va vb s

end Sys2Proof.Machine
end

