-- ==== Sys2Proof/Machine/Engine.lean ====
section
/-! DEFINITION. The ENGINE step (10_state.md R21) and the moves of the block: a host access, an engine turn, the
edges of rst_n (20_memory.md R64, 70_reset_and_hazards.md R190). -/

namespace Sys2Proof.Machine

/-- ENGINE performs the command it holds, decoding it first (10_state.md R21, 30_encoding.md R85); an idle ENGINE
does nothing. -/
def engineStep (s : State) : Out :=
  match s.pending with
  | none => .next s
  | some w =>
    match decode w with
    | .ok i => exec i s
    | .error c => raiseError c s

/-- rst_n becomes 0: the block is held at its reset values (70_reset_and_hazards.md R190). -/
def resetFalls (s : State) : State := { s.resetBlock with rstN := false }

/-- rst_n becomes 1: the block starts from its reset values; where rst_n was 1 already nothing happens. -/
def resetRises (s : State) : State :=
  if s.rstN then s else { s.resetBlock with rstN := true }

/-- One move (20_memory.md R64). While rst_n = 0 every element is held at its reset value, ENGINE performs no step,
and a host access has no move (70_reset_and_hazards.md R190). -/
def play (t : Turn) (s : State) : Out :=
  match t with
  | .host a => if s.rstN then .next (s.serve a) else .fault .accessDuringReset
  | .engine => if s.rstN then engineStep s else .next s.resetBlock
  | .rstFalls => .next (resetFalls s)
  | .rstRises => .next (resetRises s)

/-- The next move of the schedule; with none left HOST is silent and ENGINE moves, so an accepted command is
finished (70_reset_and_hazards.md R196). -/
def nextMove (s : State) : Out :=
  match s.schedule with
  | [] => play .engine s
  | t :: rest => play t { s with schedule := rest }

/-- The word is accepted as the next command, ENGINE to move. -/
def placeCommand (w : Word32) (s : State) : State :=
  { s with rstN := true, schedule := [] }.accept w

end Sys2Proof.Machine
end

