-- ==== Sys2Proof/Machine/Step.lean ====
section
/-! DEFINITION. The step of the machine: the next move of HOST or ENGINE. -/

namespace Sys2Proof.Machine

/-- One step. -/
def step (s : State) : Host.Outcome State Fault Refusal := nextMove s

/-- s with this command accepted and ENGINE to move: the block does not fetch, so a command comes to run by a CMD
write (10_state.md R22, R32), and this stands for that write (entry 6). -/
def State.withFetchWord (s : State) (nbits w : Nat) : State := placeCommand (wordOfTable nbits w) s

end Sys2Proof.Machine
end

