-- ==== Sys2Proof/Safety.lean ====
section
/-! DEFINITION. The terms claims are stated in: the invariant of the block, HOST's duty, how a command ends, what a
command may write, the host's word accesses, and the accepted DER strings as a grammar. -/

namespace Sys2Proof.Machine

/-! ## The invariant -/

/-- The point is O, or in range and on the curve (10_state.md R25). -/
def onCurve : Point → Bool
  | .infinity => true
  | .affine x y => decide (x < Config.p) && decide (y < Config.p) && curveEq x y

/-- What holds of the block in every state a run reaches. -/
structure State.Inv (s : State) : Prop where
  /-- BUSY is 1 exactly while a command is held (10_state.md R29, R35). -/
  busy_iff_pending : s.busy = s.pending.isSome
  /-- DONE is 0 while BUSY is 1 (45_system.md R167). -/
  busy_not_done : s.busy = true → s.done = false
  /-- ERR is 0 while BUSY is 1 (45_system.md R167). -/
  busy_not_err : s.busy = true → s.err = false
  /-- ERRCODE reads 0x00 exactly while ERR = 0 (10_state.md R29). -/
  err_iff_code : s.err = s.errcode.isSome
  /-- The held command is the last accepted one (10_state.md R32). -/
  pending_is_last : ∀ w, s.pending = some w → s.cmdLast = w
  /-- Every point register is O or on the curve (10_state.md R25). -/
  points_on_curve : ∀ i, onCurve (s.readP i) = true
  /-- While rst_n = 0 the block is held at its reset values (70_reset_and_hazards.md R190). -/
  held_in_reset : s.rstN = false → s.resetBlock = s

/-- HOST does not access the window while rst_n = 0 (70_reset_and_hazards.md R190): the schedule, played from this
level of rst_n, holds no access then. -/
def hostDuty : Bool → List Turn → Bool
  | _, [] => true
  | up, .host _ :: ts => up && hostDuty up ts
  | up, .engine :: ts => hostDuty up ts
  | _, .rstFalls :: ts => hostDuty false ts
  | _, .rstRises :: ts => hostDuty true ts

/-! ## How a command ends -/

/-- The command is over and did not fail: BUSY 0, DONE 1, nothing held, and ERR and ERRCODE as before
(10_state.md R21). -/
structure EndedWell (s t : State) : Prop where
  busy : t.busy = false
  done : t.done = true
  pending : t.pending = none
  err : t.err = s.err
  errcode : t.errcode = s.errcode

/-- The state an error completion leaves: s but for BUSY, DONE, ERR, ERRCODE and PENDING (60_exceptions.md R172). -/
def failed (s : State) (c : ErrorCode) : State :=
  { s with err := true, errcode := some c, busy := false, done := true, pending := none }

/-! ## The word of a command -/

/-- The words that decode to i are exactly the one with these fields (30_encoding.md R80, R84): the opcode, the operands
in their fields, every unused field zero. -/
def Encodes (i : Instr) (opc : BitVec 6) (rd ra rb : Fin 16) (sel : BitVec 2) (imm : BitVec 12) : Prop :=
  ∀ w : Word32, decode w = .ok i ↔ w = cmdWord opc rd ra rb sel imm

/-! ## What a command may write -/

/-- The state elements a command may write besides BUSY, DONE, ERR, ERRCODE and PENDING. -/
structure Writes where
  v : List VReg := []
  p : List PReg := []
  der : Bool := false
  z : Bool := false
  compare : Bool := false
  flip : Bool := false
  range : Bool := false

/-- The destinations and result flags each command's rule names (30_encoding.md R84, 10_state.md R30). -/
def writes : Instr → Writes
  | .nop => {}
  | .madd _ vd _ _ => { v := [vd], z := true }
  | .msub _ vd _ _ => { v := [vd], z := true }
  | .mmul _ vd _ _ => { v := [vd], z := true }
  | .msqr _ vd _ => { v := [vd], z := true }
  | .minv _ vd _ => { v := [vd], z := true }
  | .mneg _ vd _ => { v := [vd], z := true }
  | .mred _ vd _ => { v := [vd], z := true }
  | .mov vd _ => { v := [vd] }
  | .ldi vd _ => { v := [vd] }
  | .ldc vd _ => { v := [vd] }
  | .cmp _ _ => { compare := true }
  | .pld pd _ _ => { p := [pd], z := true }
  | .pinf pd => { p := [pd], z := true }
  | .pgen pd => { p := [pd], z := true }
  | .px vd _ => { v := [vd] }
  | .py vd _ => { v := [vd] }
  | .padd pd _ _ => { p := [pd], z := true }
  | .pdbl pd _ => { p := [pd], z := true }
  | .ptpl pd _ _ => { p := [pd], z := true }
  | .pneg pd _ => { p := [pd], z := true }
  | .pnorm pd _ => { p := [pd], z := true }
  | .ppow2 pd _ _ => { p := [pd], z := true }
  | .peq _ _ => { compare := true }
  | .pmul _ pd _ _ => { p := [pd], z := true }
  | .denc _ _ => { der := true }
  | .ddec vd va => { v := [vd, va] }
  | .lows vd _ => { v := [vd], flip := true }
  | .schk _ _ => { range := true }

/-- Everything outside k, and outside BUSY, DONE, ERR, ERRCODE and PENDING, is as before. -/
structure FrameBut (k : Writes) (s t : State) : Prop where
  v : ∀ i, i ∉ k.v → t.readV i = s.readV i
  p : ∀ i, i ∉ k.p → t.readP i = s.readP i
  dbuf : k.der = false → ∀ j : Fin 80, t.dbuf[j] = s.dbuf[j]
  dlen : k.der = false → t.dlen = s.dlen
  flagZ : k.z = false → t.flagZ = s.flagZ
  flagEq : k.compare = false → t.flagEq = s.flagEq
  flagLt : k.compare = false → t.flagLt = s.flagLt
  flagFlip : k.flip = false → t.flagFlip = s.flagFlip
  flagSv : k.range = false → t.flagSv = s.flagSv
  flagLow : k.range = false → t.flagLow = s.flagLow
  ie : t.ie = s.ie
  ovr : t.ovr = s.ovr
  cmdLast : t.cmdLast = s.cmdLast
  rstN : t.rstN = s.rstN
  schedule : t.schedule = s.schedule
  response : t.response = s.response

/-- The command runs from s to t: it ends well, and it writes what its rule names and nothing else. -/
structure Completes (i : Instr) (s t : State) : Prop where
  runs : exec i s = .next t
  ended : EndedWell s t
  frame : FrameBut (writes i) s t

/-! ## The group law as equations mod p, with no inverse computed (41_point.md R121) -/

/-- R is the third point of the line through (x1, y1) with slope l and a point of x-coordinate x2, negated. -/
def isChordPoint (l : Int) (x1 y1 x2 : Nat) (R : Point) : Prop :=
  ∃ x3 y3 : Nat, R = .affine x3 y3 ∧ x3 < Config.p ∧ y3 < Config.p ∧
    (x3 : Int) ≡ l * l - x1 - x2 [ZMOD Config.p] ∧ (y3 : Int) ≡ l * (x1 - x3) - y1 [ZMOD Config.p]

/-- R is dbl(A). -/
def isDouble : Point → Point → Prop
  | .infinity, R => R = .infinity
  | .affine x y, R =>
    (y = 0 ∧ R = .infinity) ∨
    (y ≠ 0 ∧ ∃ l : Int, l * (2 * y) ≡ 3 * x * x + Config.a [ZMOD Config.p] ∧ isChordPoint l x y x R)

/-- R is A +E B. -/
def isSum : Point → Point → Point → Prop
  | .infinity, B, R => R = B
  | .affine x y, .infinity, R => R = .affine x y
  | .affine x1 y1, .affine x2 y2, R =>
    (x1 = x2 ∧ (y1 + y2) % Config.p = 0 ∧ R = .infinity) ∨
    (x1 = x2 ∧ (y1 + y2) % Config.p ≠ 0 ∧ isDouble (.affine x1 y1) R) ∨
    (x1 ≠ x2 ∧ ∃ l : Int, l * ((x2 : Int) - x1) ≡ (y2 : Int) - y1 [ZMOD Config.p] ∧ isChordPoint l x1 y1 x2 R)

/-! ## Host accesses -/

/-- MemRead(off, 4) (00_scope.md R13, 20_memory.md R52). -/
def memRead (off : Nat) : BusAccess := ⟨.read, BitVec.ofNat 12 off, .bits32, 0b1111#4⟩

/-- MemWrite(off, 4, w) (00_scope.md R13, 20_memory.md R52). -/
def memWrite (off : Nat) (w : Word32) : BusAccess := ⟨.write w, BitVec.ofNat 12 off, .bits32, 0b1111#4⟩

/-- HOST's access is the next move, and rst_n is 1. -/
structure NextAccess (s : State) (a : BusAccess) (rest : List Turn) : Prop where
  up : s.rstN = true
  next : s.schedule = .host a :: rest

/-- ENGINE has the next move, and rst_n is 1: HOST is silent, or the schedule gives ENGINE the turn. -/
structure NextEngine (s : State) (rest : List Turn) : Prop where
  up : s.rstN = true
  next : (s.schedule = [] ∧ rest = []) ∨ s.schedule = .engine :: rest

/-- An offset of the V window, the DBUF window or DLEN (20_memory.md R57). -/
def isDataOffset (off : Nat) : Prop :=
  off % 4 = 0 ∧ ((0x100 ≤ off ∧ off < 0x300) ∨ (0x400 ≤ off ∧ off < 0x450) ∨ off = 0x010)

/-- A reserved offset (20_memory.md R53). -/
def isReservedOffset (off : Nat) : Prop :=
  off % 4 = 0 ∧ ((0x014 ≤ off ∧ off < 0x100) ∨ (0x300 ≤ off ∧ off < 0x400) ∨ (0x450 ≤ off ∧ off < 0x1000))

/-- An OK response with read data, and one to a write. -/
def okData (w : Word32) : Option BusResponse := some ⟨.ok, some w⟩
def okWritten : Option BusResponse := some ⟨.ok, none⟩

/-! ## The accepted DER strings (43_der.md R152) -/

/-- l is a length of value k: short form, or 0x81 and one byte. -/
def isDerLength (l : List Byte) (k : Nat) : Prop :=
  (k < 0x80 ∧ l = [byte k]) ∨ (k < 0x100 ∧ l = [0x81#8, byte k])

/-- c is the content of a non-negative, minimal integer below 2^256 (10_state.md R24, entry 7). -/
def isDerContent (c : List Byte) : Prop :=
  c ≠ [] ∧ beValue c < 2 ^ 256 ∧ (c.headD 0).toNat < 0x80 ∧
    ¬(2 ≤ c.length ∧ c.headD 0 = 0x00#8 ∧ (c.getD 1 0).toNat < 0x80)

/-- b is an INTEGER of value k. -/
def isDerInteger (b : List Byte) (k : Nat) : Prop :=
  ∃ l c, b = 0x02#8 :: (l ++ c) ∧ isDerLength l c.length ∧ isDerContent c ∧ beValue c = k

/-- b is exactly a SEQUENCE of the two INTEGERs r and s. -/
def isDerPair (b : List Byte) (r s : Nat) : Prop :=
  ∃ l br bs, b = 0x30#8 :: (l ++ (br ++ bs)) ∧ isDerLength l (br ++ bs).length ∧ isDerInteger br r ∧
    isDerInteger bs s

/-! ## Signed-digit recodings (42_scalar_mult.md R143) -/

/-- The sum of d_i * 2^i over a digit list given least significant digit first. -/
def digitsValue : List Digit → Int
  | [] => 0
  | d :: ds => digitValue d + 2 * digitsValue ds

/-- No two adjacent digits are both non-zero. -/
def nonAdjacent (ds : List Digit) : Prop :=
  ds.IsChain fun d e => d = .zero ∨ e = .zero

end Sys2Proof.Machine
end

