-- ==== Sys2Proof/Certificates/Slice0/Obligations.lean ====
section
/-! DEFINITION. The statements about the block, for the provers. A command's statement says, for every state and
operands that meet the hypotheses, that exec answers a next state, what the destination and the flags are in it, that
everything else is as before (Completes holds the frame, table `writes`), and when the command fails instead
(`failed`: everything but BUSY, DONE, ERR, ERRCODE and PENDING as before). -/

open Sys2Proof Sys2Proof.Machine

/-! ## Encoding -/

/-- 30_encoding.md R90, both ways. -/
def Obligations.WorkedEncodings : Prop :=
  (encode (.madd .n 1 2 3) = 0x0448D000#32 ∧ decode 0x0448D000#32 = .ok (.madd .n 1 2 3)) ∧
  (encode (.pmul .naf 2 0 5) = 0x80815000#32 ∧ decode 0x80815000#32 = .ok (.pmul .naf 2 0 5)) ∧
  (encode (.ldc 4 .gx) = 0x29000003#32 ∧ decode 0x29000003#32 = .ok (.ldc 4 .gx)) ∧
  (encode (.ddec 0 1) = 0xA4040000#32 ∧ decode 0xA4040000#32 = .ok (.ddec 0 1))

/-- Words written out from the rows of 30_encoding.md R84, at least one of each family, decode to what they stand
for. -/
def Obligations.FamilyWordsDecode : Prop :=
  decode 0x00000000#32 = .ok .nop ∧
  decode 0x15481000#32 = .ok (.minv .n 5 2) ∧
  decode 0x24C00FFF#32 = .ok (.ldi 3 0xFFF) ∧
  decode 0x40AAC000#32 = .ok (.pld 2 10 11) ∧
  decode 0x68400100#32 = .ok (.ppow2 1 0 256) ∧
  decode 0x810A7000#32 = .ok (.pmul .zsd 4 2 9) ∧
  decode 0xA00D8000#32 = .ok (.denc 3 6) ∧
  decode 0xC1980000#32 = .ok (.lows 6 6) ∧
  decode 0xC40D8000#32 = .ok (.schk 3 6)

/-- No bit of an encoding is dropped: every well-formed command is read back from its word. -/
def Obligations.DecodeOfEncode : Prop :=
  ∀ i : Instr, i.wellFormed = true → decode (encode i) = .ok i

/-- Each word has one meaning: a word that decodes is the word of what it decodes to, which is well-formed. -/
def Obligations.EncodeOfDecode : Prop :=
  ∀ (w : Word32) (i : Instr), decode w = .ok i → encode i = w ∧ i.wellFormed = true

/-- 30_encoding.md R84: a word is the command of a row when (w AND mask) = match, and of no second row. -/
def Obligations.WordOfItsRow : Prop :=
  ∀ (w : Word32) (r : Row), r ∈ opcodeMap → w &&& r.mask = r.pattern →
    decode w = .ok (r.make w) ∧ ∀ r' ∈ opcodeMap, w &&& r'.mask = r'.pattern → r'.opc = r.opc

/-- 30_encoding.md R85 and R86: the reserved OPC values, the must-be-zero bits, and the one encoding of NOP. -/
def Obligations.ReservedAndIllegalWords : Prop :=
  ∀ w : Word32,
    ((let o := (opcField w).toNat
      (0x0C ≤ o ∧ o ≤ 0x0F) ∨ (0x1C ≤ o ∧ o ≤ 0x1F) ∨ (0x21 ≤ o ∧ o ≤ 0x27) ∨ (0x2A ≤ o ∧ o ≤ 0x2F) ∨
        (0x32 ≤ o ∧ o ≤ 0x3F)) ↔ decode w = .error .illegalOpcode) ∧
    (∀ r ∈ opcodeMap, opcField w = r.opc → w &&& r.mask ≠ r.pattern → decode w = .error .illegalField) ∧
    (decode w = .ok .nop ↔ w = 0)

/-! ## ENGINE -/

/-- A step in which ENGINE has the turn runs the decoded command, with its turn taken from the schedule. -/
def Obligations.StepRunsTheHeldCommand : Prop :=
  ∀ (s : State) (rest : List Turn) (w : Word32) (i : Instr), NextEngine s rest → s.pending = some w →
    decode w = .ok i → step s = exec i { s with schedule := rest }

/-- 30_encoding.md R85, 60_exceptions.md R172: an illegal word completes with its decode error and no effect. -/
def Obligations.StepFailsAnIllegalWord : Prop :=
  ∀ (s : State) (rest : List Turn) (w : Word32) (c : ErrorCode), NextEngine s rest → s.pending = some w →
    decode w = .error c → step s = .next (failed { s with schedule := rest } c)

/-- 10_state.md R21, 60_exceptions.md R170: whatever word ENGINE holds, its turn finishes it, with success or with
an error, and IRQ is then IE. -/
def Obligations.EngineFinishesEveryCommand : Prop :=
  ∀ (s : State) (rest : List Turn) (w : Word32), NextEngine s rest → s.pending = some w →
    ∃ t, step s = .next t ∧ t.busy = false ∧ t.done = true ∧ t.pending = none ∧ t.irq = s.ie ∧
      ((t.err = s.err ∧ t.errcode = s.errcode) ∨ ∃ c, t = failed { s with schedule := rest } c)

/-- 60_exceptions.md R172: errors are precise. Whatever ENGINE does with a command held while ERR = 0, if ERR is 1
afterwards then nothing but BUSY, DONE, ERR, ERRCODE and PENDING has changed. -/
def Obligations.ErrorsArePrecise : Prop :=
  ∀ (i : Instr) (s t : State), s.err = false → exec i s = .next t → t.err = true →
    ∃ c, t.errcode = some c ∧ t = failed s c

/-- What each command may write (30_encoding.md R84, 10_state.md R30), and that everything else is as before,
whether it succeeds or fails. -/
def Obligations.CommandsKeepTheirFrame : Prop :=
  ∀ (i : Instr) (s t : State), exec i s = .next t → FrameBut (writes i) s t

/-! ## The modular arithmetic unit -/

/-- 40_field.md R103. -/
def Obligations.MaddAdds : Prop :=
  ∀ (m : Modulus) (vd va vb : VReg) (s : State),
    Encodes (.madd m vd va vb) 0x01 vd va vb (selOfModulus m) 0 ∧
    (s.valueV va < modulusValue m → s.valueV vb < modulusValue m →
      ∃ t, Completes (.madd m vd va vb) s t ∧ t.valueV vd = (s.valueV va + s.valueV vb) % modulusValue m ∧
        t.flagZ = decide (t.valueV vd = 0)) ∧
    (modulusValue m ≤ s.valueV va ∨ modulusValue m ≤ s.valueV vb →
      exec (.madd m vd va vb) s = .next (failed s .operandRange))

/-- 40_field.md R104. -/
def Obligations.MsubSubtracts : Prop :=
  ∀ (m : Modulus) (vd va vb : VReg) (s : State),
    Encodes (.msub m vd va vb) 0x02 vd va vb (selOfModulus m) 0 ∧
    (s.valueV va < modulusValue m → s.valueV vb < modulusValue m →
      ∃ t, Completes (.msub m vd va vb) s t ∧
        t.valueV vd = (if s.valueV vb ≤ s.valueV va then s.valueV va - s.valueV vb
          else s.valueV va + modulusValue m - s.valueV vb) ∧
        t.flagZ = decide (t.valueV vd = 0)) ∧
    (modulusValue m ≤ s.valueV va ∨ modulusValue m ≤ s.valueV vb →
      exec (.msub m vd va vb) s = .next (failed s .operandRange))

/-- 40_field.md R105. -/
def Obligations.MmulMultiplies : Prop :=
  ∀ (m : Modulus) (vd va vb : VReg) (s : State),
    Encodes (.mmul m vd va vb) 0x03 vd va vb (selOfModulus m) 0 ∧
    (s.valueV va < modulusValue m → s.valueV vb < modulusValue m →
      ∃ t, Completes (.mmul m vd va vb) s t ∧ t.valueV vd = s.valueV va * s.valueV vb % modulusValue m ∧
        t.flagZ = decide (t.valueV vd = 0) ∧
        (t.valueV vd = 0 ↔ s.valueV va = 0 ∨ s.valueV vb = 0)) ∧
    (modulusValue m ≤ s.valueV va ∨ modulusValue m ≤ s.valueV vb →
      exec (.mmul m vd va vb) s = .next (failed s .operandRange))

/-- 40_field.md R106; the command equals MMUL with RB = RA. -/
def Obligations.MsqrSquares : Prop :=
  ∀ (m : Modulus) (vd va : VReg) (s : State),
    Encodes (.msqr m vd va) 0x04 vd va 0 (selOfModulus m) 0 ∧
    (s.valueV va < modulusValue m →
      ∃ t, Completes (.msqr m vd va) s t ∧ t.valueV vd = s.valueV va * s.valueV va % modulusValue m ∧
        t.flagZ = decide (t.valueV vd = 0)) ∧
    (modulusValue m ≤ s.valueV va → exec (.msqr m vd va) s = .next (failed s .operandRange)) ∧
    exec (.msqr m vd va) s = exec (.mmul m vd va va) s

/-- 40_field.md R107; inv_m is said as 00_scope.md R11 defines it. -/
def Obligations.MinvInverts : Prop :=
  ∀ (m : Modulus) (vd va : VReg) (s : State),
    Encodes (.minv m vd va) 0x05 vd va 0 (selOfModulus m) 0 ∧
    (0 < s.valueV va → s.valueV va < modulusValue m →
      ∃ t, Completes (.minv m vd va) s t ∧ 0 < t.valueV vd ∧ t.valueV vd < modulusValue m ∧
        s.valueV va * t.valueV vd % modulusValue m = 1 ∧ t.flagZ = false) ∧
    (modulusValue m ≤ s.valueV va → exec (.minv m vd va) s = .next (failed s .operandRange)) ∧
    (s.valueV va = 0 → exec (.minv m vd va) s = .next (failed s .notInvertible))

/-- 40_field.md R108. -/
def Obligations.MnegNegates : Prop :=
  ∀ (m : Modulus) (vd va : VReg) (s : State),
    Encodes (.mneg m vd va) 0x06 vd va 0 (selOfModulus m) 0 ∧
    (s.valueV va < modulusValue m →
      ∃ t, Completes (.mneg m vd va) s t ∧
        t.valueV vd = (if s.valueV va = 0 then 0 else modulusValue m - s.valueV va) ∧
        t.flagZ = decide (t.valueV vd = 0)) ∧
    (modulusValue m ≤ s.valueV va → exec (.mneg m vd va) s = .next (failed s .operandRange))

/-- 40_field.md R109; the result is a or a - m. -/
def Obligations.MredReduces : Prop :=
  ∀ (m : Modulus) (vd va : VReg) (s : State),
    Encodes (.mred m vd va) 0x07 vd va 0 (selOfModulus m) 0 ∧
    ∃ t, Completes (.mred m vd va) s t ∧ t.valueV vd = s.valueV va % modulusValue m ∧
      t.valueV vd = (if s.valueV va < modulusValue m then s.valueV va else s.valueV va - modulusValue m) ∧
      t.flagZ = decide (t.valueV vd = 0)

/-! ## The value-register commands -/

/-- 40_field.md R110, R111, R112: MOV, LDI and LDC write their register and no flag. -/
def Obligations.RegisterCommandsLoad : Prop :=
  ∀ (vd va : VReg) (s : State),
    (Encodes (.mov vd va) 0x08 vd va 0 0 0 ∧
      ∃ t, Completes (.mov vd va) s t ∧ t.readV vd = s.readV va) ∧
    (∀ imm, imm < 4096 → Encodes (.ldi vd imm) 0x09 vd 0 0 0 (BitVec.ofNat 12 imm) ∧
      ∃ t, Completes (.ldi vd imm) s t ∧ t.valueV vd = imm) ∧
    (∀ cv ∈ [(CurveConst.p, 0, Config.p), (.n, 1, Config.n), (.halfN, 2, (Config.n - 1) / 2), (.gx, 3, Config.gx),
        (.gy, 4, Config.gy), (.b, 5, 7), (.h, 6, 1), (.a, 7, 0)],
      Encodes (.ldc vd cv.1) 0x0A vd 0 0 0 (BitVec.ofNat 12 cv.2.1) ∧
        ∃ t, Completes (.ldc vd cv.1) s t ∧ t.valueV vd = cv.2.2)

/-- 40_field.md R113. -/
def Obligations.CmpCompares : Prop :=
  ∀ (va vb : VReg) (s : State),
    Encodes (.cmp va vb) 0x0B 0 va vb 0 0 ∧
    ∃ t, Completes (.cmp va vb) s t ∧ t.flagEq = decide (s.valueV va = s.valueV vb) ∧
      t.flagLt = decide (s.valueV va < s.valueV vb)

/-! ## The point adder -/

/-- 41_point.md R122: the x range, the y range, the curve, in this order. -/
def Obligations.PldLoadsCheckedPoints : Prop :=
  ∀ (pd : PReg) (va vb : VReg) (s : State),
    Encodes (.pld pd va vb) 0x10 pd va vb 0 0 ∧
    (s.valueV va < Config.p → s.valueV vb < Config.p →
      s.valueV vb ^ 2 % Config.p = (s.valueV va ^ 3 + 7) % Config.p →
      ∃ t, Completes (.pld pd va vb) s t ∧ t.readP pd = .affine (s.valueV va) (s.valueV vb) ∧ t.flagZ = false) ∧
    (Config.p ≤ s.valueV va ∨ Config.p ≤ s.valueV vb →
      exec (.pld pd va vb) s = .next (failed s .operandRange)) ∧
    (s.valueV va < Config.p → s.valueV vb < Config.p →
      s.valueV vb ^ 2 % Config.p ≠ (s.valueV va ^ 3 + 7) % Config.p →
      exec (.pld pd va vb) s = .next (failed s .notOnCurve))

/-- 41_point.md R123, R124. -/
def Obligations.PinfPgenLoad : Prop :=
  ∀ (pd : PReg) (s : State),
    (Encodes (.pinf pd) 0x11 pd 0 0 0 0 ∧
      ∃ t, Completes (.pinf pd) s t ∧ t.readP pd = .infinity ∧ t.flagZ = true) ∧
    (Encodes (.pgen pd) 0x12 pd 0 0 0 0 ∧
      ∃ t, Completes (.pgen pd) s t ∧ t.readP pd = .affine Config.gx Config.gy ∧ t.flagZ = false)

/-- 41_point.md R126, R127: for a finite point in range, and for O. -/
def Obligations.PxPyStoreCoordinates : Prop :=
  ∀ (vd : VReg) (pa : PReg) (s : State),
    Encodes (.px vd pa) 0x13 vd pa 0 0 0 ∧ Encodes (.py vd pa) 0x14 vd pa 0 0 0 ∧
    (∀ x y, s.readP pa = .affine x y → x < Config.p → y < Config.p →
      (∃ t, Completes (.px vd pa) s t ∧ t.valueV vd = x) ∧ (∃ t, Completes (.py vd pa) s t ∧ t.valueV vd = y)) ∧
    (s.readP pa = .infinity →
      exec (.px vd pa) s = .next (failed s .pointAtInfinity) ∧
      exec (.py vd pa) s = .next (failed s .pointAtInfinity))

/-- 41_point.md R128, with the group law R121 as equations. -/
def Obligations.PaddAdds : Prop :=
  ∀ (pd pa pb : PReg) (s : State),
    Encodes (.padd pd pa pb) 0x15 pd pa pb 0 0 ∧
    (onCurve (s.readP pa) = true → onCurve (s.readP pb) = true →
    ∃ t, Completes (.padd pd pa pb) s t ∧ isSum (s.readP pa) (s.readP pb) (t.readP pd) ∧
      t.flagZ = decide (t.readP pd = .infinity))

/-- 41_point.md R129. -/
def Obligations.PdblDoubles : Prop :=
  ∀ (pd pa : PReg) (s : State),
    Encodes (.pdbl pd pa) 0x16 pd pa 0 0 0 ∧
    (onCurve (s.readP pa) = true →
    ∃ t, Completes (.pdbl pd pa) s t ∧ isDouble (s.readP pa) (t.readP pd) ∧
      t.flagZ = decide (t.readP pd = .infinity))

/-- 41_point.md R130: 2A + B, the result of PDBL followed by PADD. -/
def Obligations.PtplDoublesThenAdds : Prop :=
  ∀ (pd pa pb : PReg) (s : State),
    Encodes (.ptpl pd pa pb) 0x17 pd pa pb 0 0 ∧
    (onCurve (s.readP pa) = true → onCurve (s.readP pb) = true →
    ∃ t D, Completes (.ptpl pd pa pb) s t ∧ isDouble (s.readP pa) D ∧ isSum D (s.readP pb) (t.readP pd) ∧
      t.flagZ = decide (t.readP pd = .infinity) ∧
      ∀ (q : PReg), q ≠ pb →
        ∃ u v, exec (.pdbl q pa) s = .next u ∧ exec (.padd pd q pb) u = .next v ∧ v.readP pd = t.readP pd)

/-- 41_point.md R131. -/
def Obligations.PnegNegates : Prop :=
  ∀ (pd pa : PReg) (s : State),
    Encodes (.pneg pd pa) 0x18 pd pa 0 0 0 ∧
    (s.readP pa = .infinity → ∃ t, Completes (.pneg pd pa) s t ∧ t.readP pd = .infinity ∧ t.flagZ = true) ∧
    (∀ x y, s.readP pa = .affine x y → y < Config.p →
      ∃ t, Completes (.pneg pd pa) s t ∧ t.readP pd = .affine x ((Config.p - y) % Config.p) ∧ t.flagZ = false)

/-- 41_point.md R132. -/
def Obligations.PnormCopies : Prop :=
  ∀ (pd pa : PReg) (s : State),
    Encodes (.pnorm pd pa) 0x19 pd pa 0 0 0 ∧
    ∃ t, Completes (.pnorm pd pa) s t ∧ t.readP pd = s.readP pa ∧ t.flagZ = decide (s.readP pa = .infinity)

/-- 41_point.md R133: the chain of doublings, the 2^IMM-fold sum, and that only O is doubled to O. -/
def Obligations.Ppow2Doubles : Prop :=
  ∀ (pd pa : PReg) (count : Nat) (s : State), count < 4096 →
    Encodes (.ppow2 pd pa count) 0x1A pd pa 0 0 (BitVec.ofNat 12 count) ∧
    (onCurve (s.readP pa) = true →
    ∃ t, ∃ chain : Nat → Point, Completes (.ppow2 pd pa count) s t ∧ chain 0 = s.readP pa ∧
      (∀ k, k < count → isDouble (chain k) (chain (k + 1))) ∧ t.readP pd = chain count ∧
      t.readP pd = kFold (2 ^ count) (s.readP pa) ∧ t.flagZ = decide (t.readP pd = .infinity) ∧
      (t.readP pd = .infinity ↔ s.readP pa = .infinity))

/-- 41_point.md R134, R125. -/
def Obligations.PeqCompares : Prop :=
  ∀ (pa pb : PReg) (s : State),
    Encodes (.peq pa pb) 0x1B 0 pa pb 0 0 ∧
    ∃ t, Completes (.peq pa pb) s t ∧ t.flagEq = decide (s.readP pa = s.readP pb) ∧ t.flagLt = false

/-! ## The scalar-point multiplier -/

/-- 42_scalar_mult.md R141: [k]A, whatever SEL. -/
def Obligations.PmulGivesTheKFoldSum : Prop :=
  ∀ (alg : Algorithm) (pd pa : PReg) (vb : VReg) (s : State),
    Encodes (.pmul alg pd pa vb) 0x20 pd pa vb (selOfAlgorithm alg) 0 ∧
    (onCurve (s.readP pa) = true →
    ∃ t, Completes (.pmul alg pd pa vb) s t ∧ t.readP pd = kFold (s.valueV vb) (s.readP pa) ∧
      t.flagZ = decide (t.readP pd = .infinity))

/-- 42_scalar_mult.md R147: the four algorithms of R142, R144, R145 and R146 give [k]A. -/
def Obligations.FourMultipliersAgree : Prop :=
  ∀ (k : Nat) (A : Point), k < 2 ^ 256 → onCurve A = true →
    mulRef k A = kFold k A ∧ mulNaf k A = kFold k A ∧ mulLadder k A = kFold k A ∧ mulZsd k A = kFold k A

/-- 42_scalar_mult.md R143: naf(k) is a non-adjacent form of k, of at most t + 1 digits, and the only one. -/
def Obligations.NafIsTheNonAdjacentForm : Prop :=
  ∀ k : Nat,
    (digitsValue (naf k) = k ∧ nonAdjacent (naf k) ∧ (naf k).length ≤ bitLength k + 1) ∧
    ∀ ds : List Digit, digitsValue ds = k → nonAdjacent ds → ds.getLast? ≠ some .zero → ds = naf k

/-! ## The DER codec -/

/-- 43_der.md R150: the content is the shortest big-endian form of v with its top bit clear. -/
def Obligations.DerIntegerIsMinimal : Prop :=
  ∀ v : Nat, v < 2 ^ 256 →
    ∃ c, derInt v = 0x02#8 :: byte c.length :: c ∧ 1 ≤ c.length ∧ c.length ≤ 33 ∧ beValue c = v ∧ isDerContent c

/-- 43_der.md R151. -/
def Obligations.DencWritesTheSequence : Prop :=
  ∀ (va vb : VReg) (s : State),
    Encodes (.denc va vb) 0x28 0 va vb 0 0 ∧
    ∃ t, ∃ out : List Byte, Completes (.denc va vb) s t ∧
      out = 0x30#8 :: byte (out.length - 2) :: (derInt (s.valueV va) ++ derInt (s.valueV vb)) ∧
      8 ≤ out.length ∧ out.length ≤ 72 ∧ t.dlen.toNat = out.length ∧
      ∀ j : Fin 80, t.dbuf[j] = (if j.val < out.length then out.getD j.val 0 else 0)

/-- 43_der.md R152: the decoder accepts exactly the two-integer sequences, reads their values, and answers
DER_FORMAT or DER_OVERFLOW on every other string. -/
def Obligations.DecoderAcceptsTheGrammar : Prop :=
  ∀ b : List Byte,
    (∀ r s, derDecode b = .ok (r, s) ↔ isDerPair b r s) ∧
    (∀ c, derDecode b = .error c → c = .derFormat ∨ c = .derOverflow)

/-- 43_der.md R153. -/
def Obligations.DdecDecodes : Prop :=
  ∀ (vd va : VReg) (s : State),
    Encodes (.ddec vd va) 0x29 vd va 0 0 0 ∧
    (vd = va → exec (.ddec vd va) s = .next (failed s .operandConflict)) ∧
    (vd ≠ va → 80 < s.dlen.toNat → exec (.ddec vd va) s = .next (failed s .derFormat)) ∧
    (vd ≠ va → s.dlen.toNat ≤ 80 →
      (∀ c, derDecode (s.dbuf.toList.take s.dlen.toNat) = .error c →
        exec (.ddec vd va) s = .next (failed s c)) ∧
      (∀ r k, derDecode (s.dbuf.toList.take s.dlen.toNat) = .ok (r, k) →
        ∃ t, Completes (.ddec vd va) s t ∧ t.valueV vd = r ∧ t.valueV va = k))

/-- 10_state.md R27: the largest DER signature the block accepts is 75 bytes. -/
def Obligations.LargestSignature : Prop :=
  (∀ b r s, derDecode b = .ok (r, s) → b.length ≤ 75) ∧ (∃ b r s, derDecode b = .ok (r, s) ∧ b.length = 75)

/-- 43_der.md R154: DENC, then DDEC of the buffer it wrote, gives back every pair of register values. -/
def Obligations.DerRoundTrip : Prop :=
  ∀ (va vb vd ve : VReg) (s : State), vd ≠ ve →
    ∃ t u, exec (.denc va vb) s = .next t ∧ exec (.ddec vd ve) t = .next u ∧ EndedWell t u ∧
      u.readV vd = s.readV va ∧ u.readV ve = s.readV vb

/-! ## The low-S canonicalizer -/

/-- 44_lows.md R160. -/
def Obligations.LowsCanonicalizes : Prop :=
  ∀ (vd va : VReg) (s : State),
    Encodes (.lows vd va) 0x30 vd va 0 0 0 ∧
    (s.valueV va ≤ Config.halfN →
      ∃ t, Completes (.lows vd va) s t ∧ t.valueV vd = s.valueV va ∧ t.flagFlip = false) ∧
    (Config.halfN < s.valueV va → s.valueV va < Config.n →
      ∃ t, Completes (.lows vd va) s t ∧ t.valueV vd = Config.n - s.valueV va ∧ t.valueV vd ≤ Config.halfN ∧
        t.flagFlip = true) ∧
    (Config.n ≤ s.valueV va → exec (.lows vd va) s = .next (failed s .operandRange))

/-- 44_lows.md R161. -/
def Obligations.SchkReportsRange : Prop :=
  ∀ (va vb : VReg) (s : State),
    Encodes (.schk va vb) 0x31 0 va vb 0 0 ∧
    ∃ t, Completes (.schk va vb) s t ∧
      (t.flagSv = true ↔ (1 ≤ s.valueV va ∧ s.valueV va ≤ Config.n - 1) ∧
        (1 ≤ s.valueV vb ∧ s.valueV vb ≤ Config.n - 1)) ∧
      (t.flagLow = true ↔ s.valueV vb ≤ (Config.n - 1) / 2)

/-- 44_lows.md R162: LOWS of LOWS's result changes nothing more, and SCHK then finds it low. -/
def Obligations.CanonicalizationIsIdempotent : Prop :=
  ∀ (vd va ve vr : VReg) (s : State), s.valueV va < Config.n →
    ∃ t u x, exec (.lows vd va) s = .next t ∧ exec (.lows ve vd) t = .next u ∧ u.readV ve = t.readV vd ∧
      u.flagFlip = false ∧ exec (.schk vr vd) t = .next x ∧ x.flagLow = true ∧
      (1 ≤ s.valueV va → 1 ≤ t.valueV vd ∧ t.valueV vd ≤ Config.halfN)

/-! ## System operations -/

/-- 45_system.md R165. -/
def Obligations.NopOnlyCompletes : Prop :=
  (∀ w : Word32, (decode w = .ok .nop ↔ w = 0) ∧ (opcField w = 0 → w ≠ 0 → decode w = .error .illegalField)) ∧
  ∀ s : State, ∃ t, Completes .nop s t ∧ t = { s with busy := false, done := true, pending := none }

/-- 45_system.md R166: a CTRL write with SRST = 1, in any state, BUSY and ERR among them, has the effect of one cycle of
rst_n = 0; SRST reads as 0. -/
def Obligations.SoftResetResets : Prop :=
  ∀ (s : State) (w : Word32) (rest : List Turn),
    (NextAccess s (memWrite 0x004 w) rest → w.getLsbD 1 = true →
      step s = .next { State.reset with schedule := rest, response := okWritten }) ∧
    (s.schedule = .rstFalls :: .rstRises :: rest →
      ∃ t, step s = .next t ∧ step t = .next { State.reset with schedule := rest, response := s.response }) ∧
    (NextAccess s (memRead 0x004) rest →
      ∃ x, step s = .next { s with schedule := rest, response := okData x } ∧ x.getLsbD 1 = false)

/-- 45_system.md R167. -/
def Obligations.StatusWriteClears : Prop :=
  ∀ (s : State) (w : Word32) (rest : List Turn), NextAccess s (memWrite 0x008 w) rest →
    step s = .next { s with
      done := if w.getLsbD 1 then false else s.done
      err := if w.getLsbD 2 then false else s.err
      errcode := if w.getLsbD 2 then none else s.errcode
      ovr := if w.getLsbD 3 then false else s.ovr
      schedule := rest
      response := okWritten }

/-- 45_system.md R168, with the IRQ line following at once. -/
def Obligations.CtrlWriteEnablesInterrupt : Prop :=
  ∀ (s : State) (w : Word32) (rest : List Turn), NextAccess s (memWrite 0x004 w) rest → w.getLsbD 1 = false →
    ∃ t, step s = .next t ∧ t = { s with ie := w.getLsbD 0, schedule := rest, response := okWritten } ∧
      t.irq = (w.getLsbD 0 && s.done)

/-! ## The host interface -/

/-- 10_state.md R32: a CMD write, and a CMD read. -/
def Obligations.CmdWriteAcceptedOrRefused : Prop :=
  ∀ (s : State) (w : Word32) (rest : List Turn),
    (NextAccess s (memWrite 0x00C w) rest →
      (s.busy = true ∨ s.err = true →
        step s = .next { s with ovr := true, schedule := rest, response := okWritten }) ∧
      (s.busy = false → s.err = false →
        step s = .next { s with
          cmdLast := w, pending := some w, busy := true, done := false, schedule := rest, response := okWritten })) ∧
    (NextAccess s (memRead 0x00C) rest →
      step s = .next { s with schedule := rest, response := okData s.cmdLast })

/-- 20_memory.md R57: the V window, the DBUF window and DLEN are locked while BUSY = 1; ID, CTRL, STATUS and CMD
are not. -/
def Obligations.BusyLocksTheData : Prop :=
  ∀ (s : State) (off : Nat) (w : Word32) (rest : List Turn), s.busy = true →
    (isDataOffset off →
      (NextAccess s (memRead off) rest →
        step s = .next { s with ovr := true, schedule := rest, response := okData 0 }) ∧
      (NextAccess s (memWrite off w) rest →
        step s = .next { s with ovr := true, schedule := rest, response := okWritten })) ∧
    (off ∈ [0x000, 0x004, 0x008, 0x00C] → NextAccess s (memRead off) rest →
      ∃ x, step s = .next { s with schedule := rest, response := okData x } ∧
        (off = 0x000 → x = 0x45430001#32) ∧ (off = 0x00C → x = s.cmdLast) ∧ (off = 0x008 → x.getLsbD 0 = true) ∧
        (off = 0x004 → x.getLsbD 0 = s.ie))

/-- 20_memory.md R54: word j of V[i] is its bits 255-32j to 224-32j, read and written. -/
def Obligations.VWindowHoldsTheWords : Prop :=
  ∀ (s : State) (i : VReg) (j : Fin 8) (w : Word32) (rest : List Turn), s.busy = false →
    (NextAccess s (memRead (0x100 + 32 * i.val + 4 * j.val)) rest →
      ∃ x, step s = .next { s with schedule := rest, response := okData x } ∧
        ∀ k, k < 32 → x.getLsbD k = (s.readV i).getLsbD (224 - 32 * j.val + k)) ∧
    (NextAccess s (memWrite (0x100 + 32 * i.val + 4 * j.val) w) rest →
      ∃ y, step s = .next { s with v := s.v.set i y, schedule := rest, response := okWritten } ∧
        ∀ k, k < 256 → y.getLsbD k =
          (if 224 - 32 * j.val ≤ k ∧ k < 256 - 32 * j.val then w.getLsbD (k - (224 - 32 * j.val))
            else (s.readV i).getLsbD k))

/-- 20_memory.md R55: word j of DBUF holds bytes 4j to 4j+3, the lowest index in bits 31:24. -/
def Obligations.DbufWindowHoldsTheBytes : Prop :=
  ∀ (s : State) (j : Fin 20) (w : Word32) (rest : List Turn), s.busy = false →
    (NextAccess s (memRead (0x400 + 4 * j.val)) rest →
      ∃ x, step s = .next { s with schedule := rest, response := okData x } ∧
        x.toNat = s.dbuf[4 * j.val].toNat * 2 ^ 24 + s.dbuf[4 * j.val + 1].toNat * 2 ^ 16 +
          s.dbuf[4 * j.val + 2].toNat * 2 ^ 8 + s.dbuf[4 * j.val + 3].toNat) ∧
    (NextAccess s (memWrite (0x400 + 4 * j.val) w) rest →
      ∃ d : Vector Byte 80, step s = .next { s with dbuf := d, schedule := rest, response := okWritten } ∧
        d[4 * j.val].toNat * 2 ^ 24 + d[4 * j.val + 1].toNat * 2 ^ 16 + d[4 * j.val + 2].toNat * 2 ^ 8 +
          d[4 * j.val + 3].toNat = w.toNat ∧
        ∀ k : Fin 80, ¬(4 * j.val ≤ k.val ∧ k.val < 4 * j.val + 4) → d[k] = s.dbuf[k])

/-- 20_memory.md R52, 60_exceptions.md R173: any access but a 32-bit one at a multiple of 4 with all byte enables
gets the ERROR response, data 0 if it reads, and changes nothing. -/
def Obligations.MalformedAccessHasNoEffect : Prop :=
  ∀ (s : State) (a : BusAccess) (rest : List Turn), NextAccess s a rest →
    (a.width ≠ .bits32 ∨ a.offset.toNat % 4 ≠ 0 ∨ a.byteEnables ≠ 0b1111#4) →
    (a.kind = .read → step s = .next { s with schedule := rest, response := some ⟨.error, some 0⟩ }) ∧
    (∀ w, a.kind = .write w → step s = .next { s with schedule := rest, response := some ⟨.error, none⟩ })

/-- 10_state.md R31, 20_memory.md R56: ID and the reserved offsets. -/
def Obligations.IdAndReservedOffsets : Prop :=
  ∀ (s : State) (off : Nat) (w : Word32) (rest : List Turn),
    (NextAccess s (memRead 0x000) rest →
      step s = .next { s with schedule := rest, response := okData 0x45430001#32 }) ∧
    (isReservedOffset off → NextAccess s (memRead off) rest →
      step s = .next { s with schedule := rest, response := okData 0 }) ∧
    (off = 0x000 ∨ isReservedOffset off → NextAccess s (memWrite off w) rest →
      step s = .next { s with schedule := rest, response := okWritten })

/-- 10_state.md R33: DLEN is bits 6:0 of its register, read-write while BUSY = 0. -/
def Obligations.DlenRegister : Prop :=
  ∀ (s : State) (w : Word32) (rest : List Turn), s.busy = false →
    (NextAccess s (memRead 0x010) rest →
      ∃ x, step s = .next { s with schedule := rest, response := okData x } ∧ x.toNat = s.dlen.toNat) ∧
    (NextAccess s (memWrite 0x010 w) rest →
      ∃ d : BitVec 7, step s = .next { s with dlen := d, schedule := rest, response := okWritten } ∧
        d.toNat = w.toNat % 128)

/-- 10_state.md R29, 60_exceptions.md R171: the bits of a STATUS read. -/
def Obligations.StatusReadLayout : Prop :=
  ∀ (s : State) (rest : List Turn), NextAccess s (memRead 0x008) rest →
    ∃ x, step s = .next { s with schedule := rest, response := okData x } ∧
      x.getLsbD 0 = s.busy ∧ x.getLsbD 1 = s.done ∧ x.getLsbD 2 = s.err ∧ x.getLsbD 3 = s.ovr ∧
      x.getLsbD 16 = s.flagZ ∧ x.getLsbD 17 = s.flagEq ∧ x.getLsbD 18 = s.flagLt ∧ x.getLsbD 19 = s.flagFlip ∧
      x.getLsbD 20 = s.flagSv ∧ x.getLsbD 21 = s.flagLow ∧
      (∀ k, (4 ≤ k ∧ k < 8) ∨ 22 ≤ k → x.getLsbD k = false) ∧
      x.toNat / 2 ^ 8 % 2 ^ 8 =
        (match s.errcode with
          | none => 0x00
          | some .illegalOpcode => 0x01
          | some .illegalField => 0x02
          | some .operandConflict => 0x03
          | some .operandRange => 0x04
          | some .notInvertible => 0x05
          | some .notOnCurve => 0x06
          | some .pointAtInfinity => 0x07
          | some .derFormat => 0x08
          | some .derOverflow => 0x09)

/-- While BUSY = 1 HOST can neither disturb nor observe a command (20_memory.md R57, R65): an access leaves the
operands, the results and the held command alone, unless it is a soft reset, and its answer is the same whatever the
data registers hold. -/
def Obligations.BusyHidesTheCommand : Prop :=
  ∀ (s : State) (a : BusAccess), s.busy = true →
    ((s.serve a).v = s.v ∧ (s.serve a).p = s.p ∧ (s.serve a).dbuf = s.dbuf ∧ (s.serve a).dlen = s.dlen ∧
        (s.serve a).pending = s.pending ∧ (s.serve a).busy = true ∨
      ∃ w, a = memWrite 0x004 w ∧ w.getLsbD 1 = true) ∧
    ∀ v p dbuf dlen pending,
      ({ s with v := v, p := p, dbuf := dbuf, dlen := dlen, pending := pending }.serve a).response =
        (s.serve a).response

/-! ## Reset and the invariant -/

/-- 70_reset_and_hazards.md R191, every state element of its table. -/
def Obligations.ResetValues : Prop :=
  (∀ i, State.reset.readV i = 0) ∧ (∀ i, State.reset.readP i = .infinity) ∧
  (∀ j : Fin 80, State.reset.dbuf[j] = 0) ∧ State.reset.dlen = 0 ∧
  State.reset.ie = false ∧ State.reset.busy = false ∧ State.reset.done = false ∧ State.reset.err = false ∧
  State.reset.ovr = false ∧ State.reset.errcode = none ∧ State.reset.flagZ = false ∧ State.reset.flagEq = false ∧
  State.reset.flagLt = false ∧ State.reset.flagFlip = false ∧ State.reset.flagSv = false ∧
  State.reset.flagLow = false ∧ State.reset.cmdLast = 0 ∧ State.reset.pending = none ∧ State.reset.irq = false ∧
  readRegion .status State.reset = 0 ∧ readRegion .ctrl State.reset = 0 ∧
  readRegion .id State.reset = 0x45430001#32

/-- 70_reset_and_hazards.md R190: rst_n falling puts every element at its reset value and drops a command in
progress; while it is 0 the block stays there and takes no ENGINE step; a host access then has no move (the model's
named stop, entry 5); when it rises the block is as after reset. -/
def Obligations.HardwareReset : Prop :=
  ∀ (s : State) (rest : List Turn),
    (s.schedule = .rstFalls :: rest →
      step s = .next { State.reset with rstN := false, schedule := rest, response := s.response }) ∧
    (s.rstN = false → s.schedule = [] ∧ rest = [] ∨ s.schedule = .engine :: rest →
      step s = .next { State.reset with rstN := false, schedule := rest, response := s.response }) ∧
    (s.rstN = false → s.schedule = .rstRises :: rest →
      step s = .next { State.reset with schedule := rest, response := s.response }) ∧
    (∀ a, s.rstN = false → s.schedule = .host a :: rest → step s = .fault .accessDuringReset)

/-- The invariant holds after reset. -/
def Obligations.InvariantAtReset : Prop :=
  State.reset.Inv

/-- Every step from every state that meets the invariant gives a state that meets it: BUSY and PENDING, ERR and
ERRCODE agree, and every point register is O or on the curve (10_state.md R25, R29, R32, 45_system.md R167). -/
def Obligations.InvariantKept : Prop :=
  ∀ s t : State, s.Inv → step s = .next t → t.Inv

/-- While HOST keeps its duty (70_reset_and_hazards.md R190) the machine never stops, from any state and for any
number of steps: no command, legal or illegal, faults or is refused. -/
def Obligations.MachineNeverStops : Prop :=
  ∀ (k : Nat) (s : State), hostDuty s.rstN s.schedule = true → ∃ t, Host.Core.run Sys2Proof.core k s = .next t
end

