-- ==== Sys2Proof/Laws/Decode.lean ====
section
/-! SUPPORT. The fields of a command word: reading back what cmdWord put there, masking a word field by field, and
the rows of the opcode map. -/

namespace Sys2Proof.Laws

theorem extract_append_low {m n : Nat} (x : BitVec m) (y : BitVec n) : (x ++ y).extractLsb' 0 n = y := by
  apply BitVec.eq_of_getLsbD_eq
  intro i hi
  simp [BitVec.getLsbD_append, hi]

theorem extract_append_high {m n k len : Nat} (x : BitVec m) (y : BitVec n) :
    (x ++ y).extractLsb' (n + k) len = x.extractLsb' k len := by
  apply BitVec.eq_of_getLsbD_eq
  intro i hi
  simp only [BitVec.getLsbD_extractLsb', hi, decide_true, Bool.true_and, BitVec.getLsbD_append]
  rw [if_neg (by omega), show n + k + i - n = k + i by omega]

variable (o : BitVec 6) (d a b : Fin 16) (sel : BitVec 2) (imm : BitVec 12)

@[simp] theorem immField_cmdWord : immField (cmdWord o d a b sel imm) = imm :=
  extract_append_low _ _

@[simp] theorem selField_cmdWord : selField (cmdWord o d a b sel imm) = sel := by
  refine (extract_append_high (k := 0) (len := 2) _ imm).trans ?_
  exact extract_append_low _ _

@[simp] theorem rbField_cmdWord : rbField (cmdWord o d a b sel imm) = b := by
  refine congrArg BitVec.toFin ((extract_append_high (k := 2) (len := 4) _ imm).trans ?_)
  refine (extract_append_high (k := 0) (len := 4) _ sel).trans ?_
  exact extract_append_low _ _

@[simp] theorem raField_cmdWord : raField (cmdWord o d a b sel imm) = a := by
  refine congrArg BitVec.toFin ((extract_append_high (k := 6) (len := 4) _ imm).trans ?_)
  refine (extract_append_high (k := 4) (len := 4) _ sel).trans ?_
  refine (extract_append_high (k := 0) (len := 4) _ (BitVec.ofFin b : BitVec 4)).trans ?_
  exact extract_append_low _ _

@[simp] theorem rdField_cmdWord : rdField (cmdWord o d a b sel imm) = d := by
  refine congrArg BitVec.toFin ((extract_append_high (k := 10) (len := 4) _ imm).trans ?_)
  refine (extract_append_high (k := 8) (len := 4) _ sel).trans ?_
  refine (extract_append_high (k := 4) (len := 4) _ (BitVec.ofFin b : BitVec 4)).trans ?_
  refine (extract_append_high (k := 0) (len := 4) _ (BitVec.ofFin a : BitVec 4)).trans ?_
  exact extract_append_low _ _

@[simp] theorem opcField_cmdWord : opcField (cmdWord o d a b sel imm) = o := by
  refine (extract_append_high (k := 14) (len := 6) _ imm).trans ?_
  refine (extract_append_high (k := 12) (len := 6) _ sel).trans ?_
  refine (extract_append_high (k := 8) (len := 6) _ (BitVec.ofFin b : BitVec 4)).trans ?_
  refine (extract_append_high (k := 4) (len := 6) _ (BitVec.ofFin a : BitVec 4)).trans ?_
  refine (extract_append_high (k := 0) (len := 6) _ (BitVec.ofFin d : BitVec 4)).trans ?_
  ext i hi
  simp

/-- A word is its fields. -/
theorem cmdWord_fields (w : Word32) :
    cmdWord (opcField w) (rdField w) (raField w) (rbField w) (selField w) (immField w) = w := by
  apply BitVec.eq_of_getLsbD_eq
  intro i hi
  simp only [cmdWord, opcField, rdField, raField, rbField, selField, immField, BitVec.getLsbD_append,
    BitVec.ofFin_toFin, BitVec.getLsbD_extractLsb']
  split
  · simp_all
  split
  · rw [show 12 + (i - 12) = i by omega]
    simp
    omega
  split
  · rw [show 14 + (i - 12 - 2) = i by omega]
    simp
    omega
  split
  · rw [show 18 + (i - 12 - 2 - 4) = i by omega]
    simp
    omega
  split
  · rw [show 22 + (i - 12 - 2 - 4 - 4) = i by omega]
    simp
    omega
  · rw [show 26 + (i - 12 - 2 - 4 - 4 - 4) = i by omega]
    simp
    omega

/-- Masking works field by field. -/
theorem cmdWord_and (o' : BitVec 6) (d' a' b' : Fin 16) (sel' : BitVec 2) (imm' : BitVec 12) :
    cmdWord o d a b sel imm &&& cmdWord o' d' a' b' sel' imm' =
      cmdWord (o &&& o') (BitVec.ofFin d &&& BitVec.ofFin d' : BitVec 4).toFin
        (BitVec.ofFin a &&& BitVec.ofFin a' : BitVec 4).toFin (BitVec.ofFin b &&& BitVec.ofFin b' : BitVec 4).toFin
        (sel &&& sel') (imm &&& imm') := by
  simp only [cmdWord, BitVec.ofFin_toFin]
  refine BitVec.and_append.trans (congrArg (· ++ (imm &&& imm')) ?_)
  refine BitVec.and_append.trans (congrArg (· ++ (sel &&& sel')) ?_)
  refine BitVec.and_append.trans (congrArg (· ++ (BitVec.ofFin b &&& BitVec.ofFin b' : BitVec 4)) ?_)
  refine BitVec.and_append.trans (congrArg (· ++ (BitVec.ofFin a &&& BitVec.ofFin a' : BitVec 4)) ?_)
  exact BitVec.and_append

/-- The word of an unfilled field. -/
@[simp] theorem ofFin_and_allOnes (x : Fin 16) : (BitVec.ofFin x &&& BitVec.ofFin 15 : BitVec 4).toFin = x := by
  decide +revert

@[simp] theorem ofFin_and_zero (x : Fin 16) : (BitVec.ofFin x &&& BitVec.ofFin 0 : BitVec 4).toFin = 0 := by
  decide +revert

@[simp] theorem zero_and_ofFin (x : Fin 16) : (BitVec.ofFin 0 &&& BitVec.ofFin x : BitVec 4).toFin = 0 := by
  decide +revert

@[simp] theorem modulusOfSel_selOfModulus (m : Modulus) : modulusOfSel (selOfModulus m) = m := by
  cases m <;> rfl

@[simp] theorem algorithmOfSel_selOfAlgorithm (k : Algorithm) : algorithmOfSel (selOfAlgorithm k) = k := by
  cases k <;> rfl

@[simp] theorem constOfImm_immOfConst (c : CurveConst) : constOfImm (immOfConst c) = c := by
  cases c <;> rfl

/-- decode when the row is known. -/
theorem decode_of_row {w : Word32} {r : Row} (hrow : rowOf (opcField w) = some r) :
    decode w = if w &&& r.mask = r.pattern then .ok (r.make w) else .error .illegalField := by
  rw [decode, hrow]

theorem decode_of_noRow {w : Word32} (hrow : rowOf (opcField w) = none) : decode w = .error .illegalOpcode := by
  rw [decode, hrow]

end Sys2Proof.Laws
end

