-- ==== Sys2Proof/Laws/State.lean ====
section
/-! SUPPORT. What each update of the state does to each of its fields, so that no proof unfolds a record update,
and reading a register after writing one. -/

namespace Sys2Proof.Machine

variable (s : State)

@[simp] theorem State.writeV_v (i : VReg) (x : Word256) : (s.writeV i x).v = s.v.set i x := rfl
@[simp] theorem State.writeV_p (i : VReg) (x : Word256) : (s.writeV i x).p = s.p := rfl
@[simp] theorem State.writeV_dbuf (i : VReg) (x : Word256) : (s.writeV i x).dbuf = s.dbuf := rfl
@[simp] theorem State.writeV_dlen (i : VReg) (x : Word256) : (s.writeV i x).dlen = s.dlen := rfl
@[simp] theorem State.writeV_ie (i : VReg) (x : Word256) : (s.writeV i x).ie = s.ie := rfl
@[simp] theorem State.writeV_busy (i : VReg) (x : Word256) : (s.writeV i x).busy = s.busy := rfl
@[simp] theorem State.writeV_done (i : VReg) (x : Word256) : (s.writeV i x).done = s.done := rfl
@[simp] theorem State.writeV_err (i : VReg) (x : Word256) : (s.writeV i x).err = s.err := rfl
@[simp] theorem State.writeV_ovr (i : VReg) (x : Word256) : (s.writeV i x).ovr = s.ovr := rfl
@[simp] theorem State.writeV_errcode (i : VReg) (x : Word256) : (s.writeV i x).errcode = s.errcode := rfl
@[simp] theorem State.writeV_flagZ (i : VReg) (x : Word256) : (s.writeV i x).flagZ = s.flagZ := rfl
@[simp] theorem State.writeV_flagEq (i : VReg) (x : Word256) : (s.writeV i x).flagEq = s.flagEq := rfl
@[simp] theorem State.writeV_flagLt (i : VReg) (x : Word256) : (s.writeV i x).flagLt = s.flagLt := rfl
@[simp] theorem State.writeV_flagFlip (i : VReg) (x : Word256) : (s.writeV i x).flagFlip = s.flagFlip := rfl
@[simp] theorem State.writeV_flagSv (i : VReg) (x : Word256) : (s.writeV i x).flagSv = s.flagSv := rfl
@[simp] theorem State.writeV_flagLow (i : VReg) (x : Word256) : (s.writeV i x).flagLow = s.flagLow := rfl
@[simp] theorem State.writeV_cmdLast (i : VReg) (x : Word256) : (s.writeV i x).cmdLast = s.cmdLast := rfl
@[simp] theorem State.writeV_pending (i : VReg) (x : Word256) : (s.writeV i x).pending = s.pending := rfl
@[simp] theorem State.writeV_rstN (i : VReg) (x : Word256) : (s.writeV i x).rstN = s.rstN := rfl
@[simp] theorem State.writeV_schedule (i : VReg) (x : Word256) : (s.writeV i x).schedule = s.schedule := rfl
@[simp] theorem State.writeV_response (i : VReg) (x : Word256) : (s.writeV i x).response = s.response := rfl

@[simp] theorem State.writeP_v (i : PReg) (A : Point) : (s.writeP i A).v = s.v := rfl
@[simp] theorem State.writeP_p (i : PReg) (A : Point) : (s.writeP i A).p = s.p.set i A := rfl
@[simp] theorem State.writeP_dbuf (i : PReg) (A : Point) : (s.writeP i A).dbuf = s.dbuf := rfl
@[simp] theorem State.writeP_dlen (i : PReg) (A : Point) : (s.writeP i A).dlen = s.dlen := rfl
@[simp] theorem State.writeP_ie (i : PReg) (A : Point) : (s.writeP i A).ie = s.ie := rfl
@[simp] theorem State.writeP_busy (i : PReg) (A : Point) : (s.writeP i A).busy = s.busy := rfl
@[simp] theorem State.writeP_done (i : PReg) (A : Point) : (s.writeP i A).done = s.done := rfl
@[simp] theorem State.writeP_err (i : PReg) (A : Point) : (s.writeP i A).err = s.err := rfl
@[simp] theorem State.writeP_ovr (i : PReg) (A : Point) : (s.writeP i A).ovr = s.ovr := rfl
@[simp] theorem State.writeP_errcode (i : PReg) (A : Point) : (s.writeP i A).errcode = s.errcode := rfl
@[simp] theorem State.writeP_flagZ (i : PReg) (A : Point) : (s.writeP i A).flagZ = s.flagZ := rfl
@[simp] theorem State.writeP_flagEq (i : PReg) (A : Point) : (s.writeP i A).flagEq = s.flagEq := rfl
@[simp] theorem State.writeP_flagLt (i : PReg) (A : Point) : (s.writeP i A).flagLt = s.flagLt := rfl
@[simp] theorem State.writeP_flagFlip (i : PReg) (A : Point) : (s.writeP i A).flagFlip = s.flagFlip := rfl
@[simp] theorem State.writeP_flagSv (i : PReg) (A : Point) : (s.writeP i A).flagSv = s.flagSv := rfl
@[simp] theorem State.writeP_flagLow (i : PReg) (A : Point) : (s.writeP i A).flagLow = s.flagLow := rfl
@[simp] theorem State.writeP_cmdLast (i : PReg) (A : Point) : (s.writeP i A).cmdLast = s.cmdLast := rfl
@[simp] theorem State.writeP_pending (i : PReg) (A : Point) : (s.writeP i A).pending = s.pending := rfl
@[simp] theorem State.writeP_rstN (i : PReg) (A : Point) : (s.writeP i A).rstN = s.rstN := rfl
@[simp] theorem State.writeP_schedule (i : PReg) (A : Point) : (s.writeP i A).schedule = s.schedule := rfl
@[simp] theorem State.writeP_response (i : PReg) (A : Point) : (s.writeP i A).response = s.response := rfl

@[simp] theorem State.writeDer_v (out : List Byte) : (s.writeDer out).v = s.v := by rw [State.writeDer]
@[simp] theorem State.writeDer_p (out : List Byte) : (s.writeDer out).p = s.p := by rw [State.writeDer]
@[simp] theorem State.writeDer_dbuf (out : List Byte) : (s.writeDer out).dbuf = Vector.ofFn fun j => out.getD j.val 0 := rfl
@[simp] theorem State.writeDer_dlen (out : List Byte) : (s.writeDer out).dlen = BitVec.ofNat 7 out.length := rfl
@[simp] theorem State.writeDer_ie (out : List Byte) : (s.writeDer out).ie = s.ie := by rw [State.writeDer]
@[simp] theorem State.writeDer_busy (out : List Byte) : (s.writeDer out).busy = s.busy := by rw [State.writeDer]
@[simp] theorem State.writeDer_done (out : List Byte) : (s.writeDer out).done = s.done := by rw [State.writeDer]
@[simp] theorem State.writeDer_err (out : List Byte) : (s.writeDer out).err = s.err := by rw [State.writeDer]
@[simp] theorem State.writeDer_ovr (out : List Byte) : (s.writeDer out).ovr = s.ovr := by rw [State.writeDer]
@[simp] theorem State.writeDer_errcode (out : List Byte) : (s.writeDer out).errcode = s.errcode := by rw [State.writeDer]
@[simp] theorem State.writeDer_flagZ (out : List Byte) : (s.writeDer out).flagZ = s.flagZ := by rw [State.writeDer]
@[simp] theorem State.writeDer_flagEq (out : List Byte) : (s.writeDer out).flagEq = s.flagEq := by rw [State.writeDer]
@[simp] theorem State.writeDer_flagLt (out : List Byte) : (s.writeDer out).flagLt = s.flagLt := by rw [State.writeDer]
@[simp] theorem State.writeDer_flagFlip (out : List Byte) : (s.writeDer out).flagFlip = s.flagFlip := by rw [State.writeDer]
@[simp] theorem State.writeDer_flagSv (out : List Byte) : (s.writeDer out).flagSv = s.flagSv := by rw [State.writeDer]
@[simp] theorem State.writeDer_flagLow (out : List Byte) : (s.writeDer out).flagLow = s.flagLow := by rw [State.writeDer]
@[simp] theorem State.writeDer_cmdLast (out : List Byte) : (s.writeDer out).cmdLast = s.cmdLast := by rw [State.writeDer]
@[simp] theorem State.writeDer_pending (out : List Byte) : (s.writeDer out).pending = s.pending := by rw [State.writeDer]
@[simp] theorem State.writeDer_rstN (out : List Byte) : (s.writeDer out).rstN = s.rstN := by rw [State.writeDer]
@[simp] theorem State.writeDer_schedule (out : List Byte) : (s.writeDer out).schedule = s.schedule := by rw [State.writeDer]
@[simp] theorem State.writeDer_response (out : List Byte) : (s.writeDer out).response = s.response := by rw [State.writeDer]

@[simp] theorem State.accept_v (w : Word32) : (s.accept w).v = s.v := rfl
@[simp] theorem State.accept_p (w : Word32) : (s.accept w).p = s.p := rfl
@[simp] theorem State.accept_dbuf (w : Word32) : (s.accept w).dbuf = s.dbuf := rfl
@[simp] theorem State.accept_dlen (w : Word32) : (s.accept w).dlen = s.dlen := rfl
@[simp] theorem State.accept_ie (w : Word32) : (s.accept w).ie = s.ie := rfl
@[simp] theorem State.accept_busy (w : Word32) : (s.accept w).busy = true := rfl
@[simp] theorem State.accept_done (w : Word32) : (s.accept w).done = false := rfl
@[simp] theorem State.accept_err (w : Word32) : (s.accept w).err = s.err := rfl
@[simp] theorem State.accept_ovr (w : Word32) : (s.accept w).ovr = s.ovr := rfl
@[simp] theorem State.accept_errcode (w : Word32) : (s.accept w).errcode = s.errcode := rfl
@[simp] theorem State.accept_flagZ (w : Word32) : (s.accept w).flagZ = s.flagZ := rfl
@[simp] theorem State.accept_flagEq (w : Word32) : (s.accept w).flagEq = s.flagEq := rfl
@[simp] theorem State.accept_flagLt (w : Word32) : (s.accept w).flagLt = s.flagLt := rfl
@[simp] theorem State.accept_flagFlip (w : Word32) : (s.accept w).flagFlip = s.flagFlip := rfl
@[simp] theorem State.accept_flagSv (w : Word32) : (s.accept w).flagSv = s.flagSv := rfl
@[simp] theorem State.accept_flagLow (w : Word32) : (s.accept w).flagLow = s.flagLow := rfl
@[simp] theorem State.accept_cmdLast (w : Word32) : (s.accept w).cmdLast = w := rfl
@[simp] theorem State.accept_pending (w : Word32) : (s.accept w).pending = some w := rfl
@[simp] theorem State.accept_rstN (w : Word32) : (s.accept w).rstN = s.rstN := rfl
@[simp] theorem State.accept_schedule (w : Word32) : (s.accept w).schedule = s.schedule := rfl
@[simp] theorem State.accept_response (w : Word32) : (s.accept w).response = s.response := rfl

@[simp] theorem State.complete_v : s.complete.v = s.v := rfl
@[simp] theorem State.complete_p : s.complete.p = s.p := rfl
@[simp] theorem State.complete_dbuf : s.complete.dbuf = s.dbuf := rfl
@[simp] theorem State.complete_dlen : s.complete.dlen = s.dlen := rfl
@[simp] theorem State.complete_ie : s.complete.ie = s.ie := rfl
@[simp] theorem State.complete_busy : s.complete.busy = false := rfl
@[simp] theorem State.complete_done : s.complete.done = true := rfl
@[simp] theorem State.complete_err : s.complete.err = s.err := rfl
@[simp] theorem State.complete_ovr : s.complete.ovr = s.ovr := rfl
@[simp] theorem State.complete_errcode : s.complete.errcode = s.errcode := rfl
@[simp] theorem State.complete_flagZ : s.complete.flagZ = s.flagZ := rfl
@[simp] theorem State.complete_flagEq : s.complete.flagEq = s.flagEq := rfl
@[simp] theorem State.complete_flagLt : s.complete.flagLt = s.flagLt := rfl
@[simp] theorem State.complete_flagFlip : s.complete.flagFlip = s.flagFlip := rfl
@[simp] theorem State.complete_flagSv : s.complete.flagSv = s.flagSv := rfl
@[simp] theorem State.complete_flagLow : s.complete.flagLow = s.flagLow := rfl
@[simp] theorem State.complete_cmdLast : s.complete.cmdLast = s.cmdLast := rfl
@[simp] theorem State.complete_pending : s.complete.pending = none := rfl
@[simp] theorem State.complete_rstN : s.complete.rstN = s.rstN := rfl
@[simp] theorem State.complete_schedule : s.complete.schedule = s.schedule := rfl
@[simp] theorem State.complete_response : s.complete.response = s.response := rfl

@[simp] theorem State.errorCompletion_v (c : ErrorCode) : (s.errorCompletion c).v = s.v := rfl
@[simp] theorem State.errorCompletion_p (c : ErrorCode) : (s.errorCompletion c).p = s.p := rfl
@[simp] theorem State.errorCompletion_dbuf (c : ErrorCode) : (s.errorCompletion c).dbuf = s.dbuf := rfl
@[simp] theorem State.errorCompletion_dlen (c : ErrorCode) : (s.errorCompletion c).dlen = s.dlen := rfl
@[simp] theorem State.errorCompletion_ie (c : ErrorCode) : (s.errorCompletion c).ie = s.ie := rfl
@[simp] theorem State.errorCompletion_busy (c : ErrorCode) : (s.errorCompletion c).busy = false := rfl
@[simp] theorem State.errorCompletion_done (c : ErrorCode) : (s.errorCompletion c).done = true := rfl
@[simp] theorem State.errorCompletion_err (c : ErrorCode) : (s.errorCompletion c).err = true := rfl
@[simp] theorem State.errorCompletion_ovr (c : ErrorCode) : (s.errorCompletion c).ovr = s.ovr := rfl
@[simp] theorem State.errorCompletion_errcode (c : ErrorCode) : (s.errorCompletion c).errcode = some c := rfl
@[simp] theorem State.errorCompletion_flagZ (c : ErrorCode) : (s.errorCompletion c).flagZ = s.flagZ := rfl
@[simp] theorem State.errorCompletion_flagEq (c : ErrorCode) : (s.errorCompletion c).flagEq = s.flagEq := rfl
@[simp] theorem State.errorCompletion_flagLt (c : ErrorCode) : (s.errorCompletion c).flagLt = s.flagLt := rfl
@[simp] theorem State.errorCompletion_flagFlip (c : ErrorCode) : (s.errorCompletion c).flagFlip = s.flagFlip := rfl
@[simp] theorem State.errorCompletion_flagSv (c : ErrorCode) : (s.errorCompletion c).flagSv = s.flagSv := rfl
@[simp] theorem State.errorCompletion_flagLow (c : ErrorCode) : (s.errorCompletion c).flagLow = s.flagLow := rfl
@[simp] theorem State.errorCompletion_cmdLast (c : ErrorCode) : (s.errorCompletion c).cmdLast = s.cmdLast := rfl
@[simp] theorem State.errorCompletion_pending (c : ErrorCode) : (s.errorCompletion c).pending = none := rfl
@[simp] theorem State.errorCompletion_rstN (c : ErrorCode) : (s.errorCompletion c).rstN = s.rstN := rfl
@[simp] theorem State.errorCompletion_schedule (c : ErrorCode) : (s.errorCompletion c).schedule = s.schedule := rfl
@[simp] theorem State.errorCompletion_response (c : ErrorCode) : (s.errorCompletion c).response = s.response := rfl

@[simp] theorem State.clearStatus_v (w : Word32) : (s.clearStatus w).v = s.v := rfl
@[simp] theorem State.clearStatus_p (w : Word32) : (s.clearStatus w).p = s.p := rfl
@[simp] theorem State.clearStatus_dbuf (w : Word32) : (s.clearStatus w).dbuf = s.dbuf := rfl
@[simp] theorem State.clearStatus_dlen (w : Word32) : (s.clearStatus w).dlen = s.dlen := rfl
@[simp] theorem State.clearStatus_ie (w : Word32) : (s.clearStatus w).ie = s.ie := rfl
@[simp] theorem State.clearStatus_busy (w : Word32) : (s.clearStatus w).busy = s.busy := rfl
@[simp] theorem State.clearStatus_done (w : Word32) : (s.clearStatus w).done = (s.done && !w.getLsbD 1) := rfl
@[simp] theorem State.clearStatus_err (w : Word32) : (s.clearStatus w).err = (s.err && !w.getLsbD 2) := rfl
@[simp] theorem State.clearStatus_ovr (w : Word32) : (s.clearStatus w).ovr = (s.ovr && !w.getLsbD 3) := rfl
@[simp] theorem State.clearStatus_errcode (w : Word32) : (s.clearStatus w).errcode = if w.getLsbD 2 then none else s.errcode := rfl
@[simp] theorem State.clearStatus_flagZ (w : Word32) : (s.clearStatus w).flagZ = s.flagZ := rfl
@[simp] theorem State.clearStatus_flagEq (w : Word32) : (s.clearStatus w).flagEq = s.flagEq := rfl
@[simp] theorem State.clearStatus_flagLt (w : Word32) : (s.clearStatus w).flagLt = s.flagLt := rfl
@[simp] theorem State.clearStatus_flagFlip (w : Word32) : (s.clearStatus w).flagFlip = s.flagFlip := rfl
@[simp] theorem State.clearStatus_flagSv (w : Word32) : (s.clearStatus w).flagSv = s.flagSv := rfl
@[simp] theorem State.clearStatus_flagLow (w : Word32) : (s.clearStatus w).flagLow = s.flagLow := rfl
@[simp] theorem State.clearStatus_cmdLast (w : Word32) : (s.clearStatus w).cmdLast = s.cmdLast := rfl
@[simp] theorem State.clearStatus_pending (w : Word32) : (s.clearStatus w).pending = s.pending := rfl
@[simp] theorem State.clearStatus_rstN (w : Word32) : (s.clearStatus w).rstN = s.rstN := rfl
@[simp] theorem State.clearStatus_schedule (w : Word32) : (s.clearStatus w).schedule = s.schedule := rfl
@[simp] theorem State.clearStatus_response (w : Word32) : (s.clearStatus w).response = s.response := rfl

@[simp] theorem State.resetBlock_v : s.resetBlock.v = State.reset.v := rfl
@[simp] theorem State.resetBlock_p : s.resetBlock.p = State.reset.p := rfl
@[simp] theorem State.resetBlock_dbuf : s.resetBlock.dbuf = State.reset.dbuf := rfl
@[simp] theorem State.resetBlock_dlen : s.resetBlock.dlen = State.reset.dlen := rfl
@[simp] theorem State.resetBlock_ie : s.resetBlock.ie = State.reset.ie := rfl
@[simp] theorem State.resetBlock_busy : s.resetBlock.busy = State.reset.busy := rfl
@[simp] theorem State.resetBlock_done : s.resetBlock.done = State.reset.done := rfl
@[simp] theorem State.resetBlock_err : s.resetBlock.err = State.reset.err := rfl
@[simp] theorem State.resetBlock_ovr : s.resetBlock.ovr = State.reset.ovr := rfl
@[simp] theorem State.resetBlock_errcode : s.resetBlock.errcode = State.reset.errcode := rfl
@[simp] theorem State.resetBlock_flagZ : s.resetBlock.flagZ = State.reset.flagZ := rfl
@[simp] theorem State.resetBlock_flagEq : s.resetBlock.flagEq = State.reset.flagEq := rfl
@[simp] theorem State.resetBlock_flagLt : s.resetBlock.flagLt = State.reset.flagLt := rfl
@[simp] theorem State.resetBlock_flagFlip : s.resetBlock.flagFlip = State.reset.flagFlip := rfl
@[simp] theorem State.resetBlock_flagSv : s.resetBlock.flagSv = State.reset.flagSv := rfl
@[simp] theorem State.resetBlock_flagLow : s.resetBlock.flagLow = State.reset.flagLow := rfl
@[simp] theorem State.resetBlock_cmdLast : s.resetBlock.cmdLast = State.reset.cmdLast := rfl
@[simp] theorem State.resetBlock_pending : s.resetBlock.pending = State.reset.pending := rfl
@[simp] theorem State.resetBlock_rstN : s.resetBlock.rstN = s.rstN := rfl
@[simp] theorem State.resetBlock_schedule : s.resetBlock.schedule = s.schedule := rfl
@[simp] theorem State.resetBlock_response : s.resetBlock.response = s.response := rfl

@[simp] theorem State.setZ_v (b : Bool) : (s.setZ b).v = s.v := rfl
@[simp] theorem State.setZ_p (b : Bool) : (s.setZ b).p = s.p := rfl
@[simp] theorem State.setZ_dbuf (b : Bool) : (s.setZ b).dbuf = s.dbuf := rfl
@[simp] theorem State.setZ_dlen (b : Bool) : (s.setZ b).dlen = s.dlen := rfl
@[simp] theorem State.setZ_ie (b : Bool) : (s.setZ b).ie = s.ie := rfl
@[simp] theorem State.setZ_busy (b : Bool) : (s.setZ b).busy = s.busy := rfl
@[simp] theorem State.setZ_done (b : Bool) : (s.setZ b).done = s.done := rfl
@[simp] theorem State.setZ_err (b : Bool) : (s.setZ b).err = s.err := rfl
@[simp] theorem State.setZ_ovr (b : Bool) : (s.setZ b).ovr = s.ovr := rfl
@[simp] theorem State.setZ_errcode (b : Bool) : (s.setZ b).errcode = s.errcode := rfl
@[simp] theorem State.setZ_flagZ (b : Bool) : (s.setZ b).flagZ = b := rfl
@[simp] theorem State.setZ_flagEq (b : Bool) : (s.setZ b).flagEq = s.flagEq := rfl
@[simp] theorem State.setZ_flagLt (b : Bool) : (s.setZ b).flagLt = s.flagLt := rfl
@[simp] theorem State.setZ_flagFlip (b : Bool) : (s.setZ b).flagFlip = s.flagFlip := rfl
@[simp] theorem State.setZ_flagSv (b : Bool) : (s.setZ b).flagSv = s.flagSv := rfl
@[simp] theorem State.setZ_flagLow (b : Bool) : (s.setZ b).flagLow = s.flagLow := rfl
@[simp] theorem State.setZ_cmdLast (b : Bool) : (s.setZ b).cmdLast = s.cmdLast := rfl
@[simp] theorem State.setZ_pending (b : Bool) : (s.setZ b).pending = s.pending := rfl
@[simp] theorem State.setZ_rstN (b : Bool) : (s.setZ b).rstN = s.rstN := rfl
@[simp] theorem State.setZ_schedule (b : Bool) : (s.setZ b).schedule = s.schedule := rfl
@[simp] theorem State.setZ_response (b : Bool) : (s.setZ b).response = s.response := rfl

@[simp] theorem State.setCompare_v (eq lt : Bool) : (s.setCompare eq lt).v = s.v := rfl
@[simp] theorem State.setCompare_p (eq lt : Bool) : (s.setCompare eq lt).p = s.p := rfl
@[simp] theorem State.setCompare_dbuf (eq lt : Bool) : (s.setCompare eq lt).dbuf = s.dbuf := rfl
@[simp] theorem State.setCompare_dlen (eq lt : Bool) : (s.setCompare eq lt).dlen = s.dlen := rfl
@[simp] theorem State.setCompare_ie (eq lt : Bool) : (s.setCompare eq lt).ie = s.ie := rfl
@[simp] theorem State.setCompare_busy (eq lt : Bool) : (s.setCompare eq lt).busy = s.busy := rfl
@[simp] theorem State.setCompare_done (eq lt : Bool) : (s.setCompare eq lt).done = s.done := rfl
@[simp] theorem State.setCompare_err (eq lt : Bool) : (s.setCompare eq lt).err = s.err := rfl
@[simp] theorem State.setCompare_ovr (eq lt : Bool) : (s.setCompare eq lt).ovr = s.ovr := rfl
@[simp] theorem State.setCompare_errcode (eq lt : Bool) : (s.setCompare eq lt).errcode = s.errcode := rfl
@[simp] theorem State.setCompare_flagZ (eq lt : Bool) : (s.setCompare eq lt).flagZ = s.flagZ := rfl
@[simp] theorem State.setCompare_flagEq (eq lt : Bool) : (s.setCompare eq lt).flagEq = eq := rfl
@[simp] theorem State.setCompare_flagLt (eq lt : Bool) : (s.setCompare eq lt).flagLt = lt := rfl
@[simp] theorem State.setCompare_flagFlip (eq lt : Bool) : (s.setCompare eq lt).flagFlip = s.flagFlip := rfl
@[simp] theorem State.setCompare_flagSv (eq lt : Bool) : (s.setCompare eq lt).flagSv = s.flagSv := rfl
@[simp] theorem State.setCompare_flagLow (eq lt : Bool) : (s.setCompare eq lt).flagLow = s.flagLow := rfl
@[simp] theorem State.setCompare_cmdLast (eq lt : Bool) : (s.setCompare eq lt).cmdLast = s.cmdLast := rfl
@[simp] theorem State.setCompare_pending (eq lt : Bool) : (s.setCompare eq lt).pending = s.pending := rfl
@[simp] theorem State.setCompare_rstN (eq lt : Bool) : (s.setCompare eq lt).rstN = s.rstN := rfl
@[simp] theorem State.setCompare_schedule (eq lt : Bool) : (s.setCompare eq lt).schedule = s.schedule := rfl
@[simp] theorem State.setCompare_response (eq lt : Bool) : (s.setCompare eq lt).response = s.response := rfl

@[simp] theorem State.setFlip_v (b : Bool) : (s.setFlip b).v = s.v := rfl
@[simp] theorem State.setFlip_p (b : Bool) : (s.setFlip b).p = s.p := rfl
@[simp] theorem State.setFlip_dbuf (b : Bool) : (s.setFlip b).dbuf = s.dbuf := rfl
@[simp] theorem State.setFlip_dlen (b : Bool) : (s.setFlip b).dlen = s.dlen := rfl
@[simp] theorem State.setFlip_ie (b : Bool) : (s.setFlip b).ie = s.ie := rfl
@[simp] theorem State.setFlip_busy (b : Bool) : (s.setFlip b).busy = s.busy := rfl
@[simp] theorem State.setFlip_done (b : Bool) : (s.setFlip b).done = s.done := rfl
@[simp] theorem State.setFlip_err (b : Bool) : (s.setFlip b).err = s.err := rfl
@[simp] theorem State.setFlip_ovr (b : Bool) : (s.setFlip b).ovr = s.ovr := rfl
@[simp] theorem State.setFlip_errcode (b : Bool) : (s.setFlip b).errcode = s.errcode := rfl
@[simp] theorem State.setFlip_flagZ (b : Bool) : (s.setFlip b).flagZ = s.flagZ := rfl
@[simp] theorem State.setFlip_flagEq (b : Bool) : (s.setFlip b).flagEq = s.flagEq := rfl
@[simp] theorem State.setFlip_flagLt (b : Bool) : (s.setFlip b).flagLt = s.flagLt := rfl
@[simp] theorem State.setFlip_flagFlip (b : Bool) : (s.setFlip b).flagFlip = b := rfl
@[simp] theorem State.setFlip_flagSv (b : Bool) : (s.setFlip b).flagSv = s.flagSv := rfl
@[simp] theorem State.setFlip_flagLow (b : Bool) : (s.setFlip b).flagLow = s.flagLow := rfl
@[simp] theorem State.setFlip_cmdLast (b : Bool) : (s.setFlip b).cmdLast = s.cmdLast := rfl
@[simp] theorem State.setFlip_pending (b : Bool) : (s.setFlip b).pending = s.pending := rfl
@[simp] theorem State.setFlip_rstN (b : Bool) : (s.setFlip b).rstN = s.rstN := rfl
@[simp] theorem State.setFlip_schedule (b : Bool) : (s.setFlip b).schedule = s.schedule := rfl
@[simp] theorem State.setFlip_response (b : Bool) : (s.setFlip b).response = s.response := rfl

@[simp] theorem State.setRange_v (sv low : Bool) : (s.setRange sv low).v = s.v := rfl
@[simp] theorem State.setRange_p (sv low : Bool) : (s.setRange sv low).p = s.p := rfl
@[simp] theorem State.setRange_dbuf (sv low : Bool) : (s.setRange sv low).dbuf = s.dbuf := rfl
@[simp] theorem State.setRange_dlen (sv low : Bool) : (s.setRange sv low).dlen = s.dlen := rfl
@[simp] theorem State.setRange_ie (sv low : Bool) : (s.setRange sv low).ie = s.ie := rfl
@[simp] theorem State.setRange_busy (sv low : Bool) : (s.setRange sv low).busy = s.busy := rfl
@[simp] theorem State.setRange_done (sv low : Bool) : (s.setRange sv low).done = s.done := rfl
@[simp] theorem State.setRange_err (sv low : Bool) : (s.setRange sv low).err = s.err := rfl
@[simp] theorem State.setRange_ovr (sv low : Bool) : (s.setRange sv low).ovr = s.ovr := rfl
@[simp] theorem State.setRange_errcode (sv low : Bool) : (s.setRange sv low).errcode = s.errcode := rfl
@[simp] theorem State.setRange_flagZ (sv low : Bool) : (s.setRange sv low).flagZ = s.flagZ := rfl
@[simp] theorem State.setRange_flagEq (sv low : Bool) : (s.setRange sv low).flagEq = s.flagEq := rfl
@[simp] theorem State.setRange_flagLt (sv low : Bool) : (s.setRange sv low).flagLt = s.flagLt := rfl
@[simp] theorem State.setRange_flagFlip (sv low : Bool) : (s.setRange sv low).flagFlip = s.flagFlip := rfl
@[simp] theorem State.setRange_flagSv (sv low : Bool) : (s.setRange sv low).flagSv = sv := rfl
@[simp] theorem State.setRange_flagLow (sv low : Bool) : (s.setRange sv low).flagLow = low := rfl
@[simp] theorem State.setRange_cmdLast (sv low : Bool) : (s.setRange sv low).cmdLast = s.cmdLast := rfl
@[simp] theorem State.setRange_pending (sv low : Bool) : (s.setRange sv low).pending = s.pending := rfl
@[simp] theorem State.setRange_rstN (sv low : Bool) : (s.setRange sv low).rstN = s.rstN := rfl
@[simp] theorem State.setRange_schedule (sv low : Bool) : (s.setRange sv low).schedule = s.schedule := rfl
@[simp] theorem State.setRange_response (sv low : Bool) : (s.setRange sv low).response = s.response := rfl

@[simp] theorem placeCommand_v (w : Word32) : (placeCommand w s).v = s.v := rfl
@[simp] theorem placeCommand_p (w : Word32) : (placeCommand w s).p = s.p := rfl
@[simp] theorem placeCommand_dbuf (w : Word32) : (placeCommand w s).dbuf = s.dbuf := rfl
@[simp] theorem placeCommand_dlen (w : Word32) : (placeCommand w s).dlen = s.dlen := rfl
@[simp] theorem placeCommand_ie (w : Word32) : (placeCommand w s).ie = s.ie := rfl
@[simp] theorem placeCommand_busy (w : Word32) : (placeCommand w s).busy = true := rfl
@[simp] theorem placeCommand_done (w : Word32) : (placeCommand w s).done = false := rfl
@[simp] theorem placeCommand_err (w : Word32) : (placeCommand w s).err = s.err := rfl
@[simp] theorem placeCommand_ovr (w : Word32) : (placeCommand w s).ovr = s.ovr := rfl
@[simp] theorem placeCommand_errcode (w : Word32) : (placeCommand w s).errcode = s.errcode := rfl
@[simp] theorem placeCommand_flagZ (w : Word32) : (placeCommand w s).flagZ = s.flagZ := rfl
@[simp] theorem placeCommand_flagEq (w : Word32) : (placeCommand w s).flagEq = s.flagEq := rfl
@[simp] theorem placeCommand_flagLt (w : Word32) : (placeCommand w s).flagLt = s.flagLt := rfl
@[simp] theorem placeCommand_flagFlip (w : Word32) : (placeCommand w s).flagFlip = s.flagFlip := rfl
@[simp] theorem placeCommand_flagSv (w : Word32) : (placeCommand w s).flagSv = s.flagSv := rfl
@[simp] theorem placeCommand_flagLow (w : Word32) : (placeCommand w s).flagLow = s.flagLow := rfl
@[simp] theorem placeCommand_cmdLast (w : Word32) : (placeCommand w s).cmdLast = w := rfl
@[simp] theorem placeCommand_pending (w : Word32) : (placeCommand w s).pending = some w := rfl
@[simp] theorem placeCommand_rstN (w : Word32) : (placeCommand w s).rstN = true := rfl
@[simp] theorem placeCommand_schedule (w : Word32) : (placeCommand w s).schedule = [] := rfl
@[simp] theorem placeCommand_response (w : Word32) : (placeCommand w s).response = s.response := rfl

/-! ## Register reads after writes -/

@[simp] theorem readV_writeV_same (i : VReg) (x : Word256) : (s.writeV i x).readV i = x := by
  simp [State.readV]

theorem readV_writeV_other {i j : VReg} (h : j ≠ i) (x : Word256) : (s.writeV i x).readV j = s.readV j := by
  have h' : i.val ≠ j.val := fun e => h (Fin.ext e.symm)
  simp [State.readV, Vector.getElem_set_ne _ _ h']

@[simp] theorem readP_writeP_same (i : PReg) (A : Point) : (s.writeP i A).readP i = A := by
  simp [State.readP]

theorem readP_writeP_other {i j : PReg} (h : j ≠ i) (A : Point) : (s.writeP i A).readP j = s.readP j := by
  have h' : i.val ≠ j.val := fun e => h (Fin.ext e.symm)
  simp [State.readP, Vector.getElem_set_ne _ _ h']

/-! ## The other reads see only their own file -/

theorem readV_congr {s t : State} (h : t.v = s.v) (i : VReg) : t.readV i = s.readV i := by
  rw [State.readV, State.readV, h]

theorem valueV_congr {s t : State} (h : t.v = s.v) (i : VReg) : t.valueV i = s.valueV i := by
  rw [State.valueV, State.valueV, readV_congr h]

theorem readP_congr {s t : State} (h : t.p = s.p) (i : PReg) : t.readP i = s.readP i := by
  rw [State.readP, State.readP, h]

theorem valueV_lt (i : VReg) : s.valueV i < 2 ^ 256 := (s.readV i).isLt

theorem valueV_eq_of_readV {s t : State} {i j : VReg} (h : t.readV i = s.readV j) : t.valueV i = s.valueV j := by
  rw [State.valueV, State.valueV, h]

@[simp] theorem reset_readV (i : VReg) : State.reset.readV i = 0 := by
  simp [State.readV, State.reset]

@[simp] theorem reset_readP (i : PReg) : State.reset.readP i = .infinity := by
  simp [State.readP, State.reset]

end Sys2Proof.Machine
end

