-- ==== Sys2Proof/Laws/Ops.lean ====
section
/-! SUPPORT. What each shared operation can do, said once: the two ends of a command, the checked operand, the
result writers, the small unfoldings of the point functions. -/

namespace Sys2Proof.Machine

/-! ## The two ends of a command -/

theorem succeed_next_iff {s t : State} : succeed s = .next t ↔ t = s.complete := by
  rw [succeed, Host.Outcome.next.injEq]
  exact eq_comm

theorem raiseError_next_iff {c : ErrorCode} {s t : State} : raiseError c s = .next t ↔ t = s.errorCompletion c := by
  rw [raiseError, Host.Outcome.next.injEq]
  exact eq_comm

theorem errorCompletion_eq_failed (s : State) (c : ErrorCode) : s.errorCompletion c = failed s c := rfl

theorem raiseError_eq (c : ErrorCode) (s : State) : raiseError c s = .next (failed s c) := rfl

/-- A state that differs from s in no error field ends s's command well. -/
theorem endedWell_complete {s u : State} (he : u.err = s.err) (hc : u.errcode = s.errcode) :
    EndedWell s u.complete :=
  ⟨rfl, rfl, rfl, he, hc⟩

/-! ## Operands -/

theorem withBelow_of_lt {m : Nat} {i : VReg} {s : State} {k : Nat → Out} (h : s.valueV i < m) :
    withBelow m i s k = k (s.valueV i) :=
  if_neg (by omega)

theorem withBelow_of_le {m : Nat} {i : VReg} {s : State} {k : Nat → Out} (h : m ≤ s.valueV i) :
    withBelow m i s k = .next (failed s .operandRange) :=
  if_pos h

/-- Either the operand is refused, or the command goes on with a value below m. -/
theorem withBelow_cases (m : Nat) (i : VReg) (s : State) (k : Nat → Out) :
    (m ≤ s.valueV i ∧ withBelow m i s k = .next (failed s .operandRange)) ∨
      (s.valueV i < m ∧ withBelow m i s k = k (s.valueV i)) := by
  rcases Nat.lt_or_ge (s.valueV i) m with h | h
  · exact .inr ⟨h, withBelow_of_lt h⟩
  · exact .inl ⟨h, withBelow_of_le h⟩

theorem toNat_word256 {k : Nat} (h : k < 2 ^ 256) : (word256 k).toNat = k := by
  rw [word256, BitVec.toNat_ofNat, Nat.mod_eq_of_lt h]

/-! ## Results -/

theorem finishModular_eq (vd : VReg) (r : Nat) (s : State) :
    finishModular vd r s = .next ((s.writeV vd (word256 r)).setZ (decide (r = 0))).complete :=
  rfl

theorem finishPoint_eq (pd : PReg) (R : Point) (s : State) :
    finishPoint pd R s = .next ((s.writeP pd R).setZ (decide (R = .infinity))).complete :=
  rfl

/-! ## Points -/

theorem timesPow2_zero (R : Point) : timesPow2 0 R = R := rfl

theorem timesPow2_succ (c : Nat) (R : Point) : timesPow2 (c + 1) R = timesPow2 c (dbl R) := by
  rw [timesPow2]
  cases dbl R <;> rfl

theorem kFold_zero (A : Point) : kFold 0 A = .infinity := rfl

theorem kFold_succ (k : Nat) (A : Point) : kFold (k + 1) A = addE (kFold k A) A := rfl

/-- The highest bit is below t. -/
theorem lt_pow_bitLength (k : Nat) : k < 2 ^ bitLength k := by
  rw [bitLength]
  split
  · omega
  · exact Nat.lt_log2_self

/-- One bit of k from the quotients the loops run through. -/
theorem quotient_step (k i : Nat) : k / 2 ^ i = 2 * (k / 2 ^ (i + 1)) + (k.testBit i).toNat := by
  have hbit : (k.testBit i).toNat = k / 2 ^ i % 2 := Nat.toNat_testBit k i
  have hdiv : k / 2 ^ (i + 1) = k / 2 ^ i / 2 := by
    rw [pow_succ, Nat.div_div_eq_div_mul]
  omega

end Sys2Proof.Machine
end

