-- ==== Sys2Proof/Laws/Engine.lean ====
section
/-! SUPPORT. What a step can do, said once: which move it is, what an engine turn does, what a host access does. -/

namespace Sys2Proof.Machine

/-! ## ENGINE -/

theorem engineStep_idle {s : State} (h : s.pending = none) : engineStep s = .next s := by
  rw [engineStep, h]

theorem engineStep_legal {s : State} {w : Word32} {i : Instr} (h : s.pending = some w) (hd : decode w = .ok i) :
    engineStep s = exec i s := by
  simp only [engineStep, h, hd]

theorem engineStep_illegal {s : State} {w : Word32} {c : ErrorCode} (h : s.pending = some w)
    (hd : decode w = .error c) : engineStep s = .next (failed s c) := by
  simp only [engineStep, h, hd]
  rfl

/-- The three cases of an engine turn. -/
theorem engineStep_cases (s : State) :
    (s.pending = none ∧ engineStep s = .next s) ∨
    (∃ w i, s.pending = some w ∧ decode w = .ok i ∧ engineStep s = exec i s) ∨
    (∃ w c, s.pending = some w ∧ decode w = .error c ∧ engineStep s = .next (failed s c)) := by
  cases hp : s.pending with
  | none => exact .inl ⟨rfl, engineStep_idle hp⟩
  | some w =>
    cases hd : decode w with
    | ok i => exact .inr (.inl ⟨w, i, rfl, hd, engineStep_legal hp hd⟩)
    | error c => exact .inr (.inr ⟨w, c, rfl, hd, engineStep_illegal hp hd⟩)

/-! ## Moves -/

theorem step_silent {s : State} (h : s.schedule = []) : step s = play .engine s := by
  rw [step, nextMove, h]

theorem step_turn {s : State} {t : Turn} {rest : List Turn} (h : s.schedule = t :: rest) :
    step s = play t { s with schedule := rest } := by
  rw [step, nextMove, h]

/-- Every step is one move: of the first turn of the schedule, or ENGINE's when there is none. -/
theorem step_cases (s : State) :
    (s.schedule = [] ∧ step s = play .engine s) ∨
    (∃ t rest, s.schedule = t :: rest ∧ step s = play t { s with schedule := rest }) := by
  cases h : s.schedule with
  | nil => exact .inl ⟨rfl, step_silent h⟩
  | cons t rest => exact .inr ⟨t, rest, rfl, step_turn h⟩

theorem play_engine {s : State} (h : s.rstN = true) : play .engine s = engineStep s := if_pos h

theorem play_engine_held {s : State} (h : s.rstN = false) : play .engine s = .next s.resetBlock := by
  rw [play, h]
  rfl

theorem play_host {s : State} (h : s.rstN = true) (a : BusAccess) : play (.host a) s = .next (s.serve a) := if_pos h

theorem play_host_held {s : State} (h : s.rstN = false) (a : BusAccess) :
    play (.host a) s = .fault .accessDuringReset := by
  rw [play, h]
  rfl

/-! ## Host accesses -/

theorem isWordAccess_iff (a : BusAccess) :
    isWordAccess a = true ↔ a.width = .bits32 ∧ a.offset.toNat % 4 = 0 ∧ a.byteEnables = 0b1111#4 := by
  simp [isWordAccess, and_assoc]

theorem isWordAccess_memRead {off : Nat} (h : off < 4096) (h4 : off % 4 = 0) : isWordAccess (memRead off) = true := by
  rw [isWordAccess_iff]
  refine ⟨rfl, ?_, rfl⟩
  rw [memRead, BitVec.toNat_ofNat, Nat.mod_eq_of_lt (show off < 2 ^ 12 by omega)]
  exact h4

theorem isWordAccess_memWrite {off : Nat} (w : Word32) (h : off < 4096) (h4 : off % 4 = 0) :
    isWordAccess (memWrite off w) = true := by
  rw [isWordAccess_iff]
  refine ⟨rfl, ?_, rfl⟩
  rw [memWrite, BitVec.toNat_ofNat, Nat.mod_eq_of_lt (show off < 2 ^ 12 by omega)]
  exact h4

theorem serve_memRead (s : State) {off : Nat} (h : off < 4096) (h4 : off % 4 = 0) :
    s.serve (memRead off) = readWord (regionAt off) s := by
  rw [State.serve, if_pos (isWordAccess_memRead h h4)]
  simp only [memRead, BitVec.toNat_ofNat]
  rw [Nat.mod_eq_of_lt (show off < 2 ^ 12 by omega)]

theorem serve_memWrite (s : State) (w : Word32) {off : Nat} (h : off < 4096) (h4 : off % 4 = 0) :
    s.serve (memWrite off w) = writeWord (regionAt off) w s := by
  rw [State.serve, if_pos (isWordAccess_memWrite w h h4)]
  simp only [memWrite, BitVec.toNat_ofNat]
  rw [Nat.mod_eq_of_lt (show off < 2 ^ 12 by omega)]

/-- The three cases of a host access. -/
theorem serve_cases (s : State) (a : BusAccess) :
    (isWordAccess a = false ∧ s.serve a = refuseAccess a.kind s) ∨
    (isWordAccess a = true ∧ a.kind = .read ∧ s.serve a = readWord (regionAt a.offset.toNat) s) ∨
    (∃ w, isWordAccess a = true ∧ a.kind = .write w ∧ s.serve a = writeWord (regionAt a.offset.toNat) w s) := by
  cases hw : isWordAccess a with
  | false => exact .inl ⟨rfl, by simp [State.serve, hw]⟩
  | true =>
    cases hk : a.kind with
    | read => exact .inr (.inl ⟨rfl, rfl, by simp [State.serve, hw, hk]⟩)
    | write w => exact .inr (.inr ⟨w, rfl, rfl, by simp [State.serve, hw, hk]⟩)

/-! ## The map -/

theorem regionAt_v (i : VReg) (j : Fin 8) : regionAt (0x100 + 32 * i.val + 4 * j.val) = .vWord i j := by
  have hi := i.isLt
  have hj := j.isLt
  rw [regionAt, if_neg (by omega), if_neg (by omega), if_neg (by omega), if_neg (by omega), if_neg (by omega),
    dif_pos (by omega)]
  congr 1 <;> ext <;> simp <;> omega

theorem regionAt_dbuf (j : Fin 20) : regionAt (0x400 + 4 * j.val) = .dbufWord j := by
  have hj := j.isLt
  rw [regionAt, if_neg (by omega), if_neg (by omega), if_neg (by omega), if_neg (by omega), if_neg (by omega),
    dif_neg (by omega), dif_pos (by omega)]
  congr 1
  ext
  simp

end Sys2Proof.Machine
end

