-- ==== Sys2Proof/Laws/Primality.lean ====
section
/-! SUPPORT. p and n are prime (00_scope.md R3), by Pratt certificates, and modInv is the inverse of
00_scope.md R11. -/

namespace Sys2Proof.Laws

open Sys2Proof.Machine

theorem powModLoop_eq (m b e : Nat) (i acc : Nat) (h : acc = b ^ (e / 2 ^ i) % m) :
    powModLoop m b e i acc = b ^ e % m := by
  induction i generalizing acc with
  | zero => simpa [powModLoop] using h
  | succ i ih =>
    have hsq : acc * acc % m = b ^ (2 * (e / 2 ^ (i + 1))) % m := by
      subst h
      rw [← Nat.mul_mod, ← pow_add, two_mul]
    have hstep : e / 2 ^ i = 2 * (e / 2 ^ (i + 1)) + (e.testBit i).toNat := by
      have hbit : (e.testBit i).toNat = e / 2 ^ i % 2 := Nat.toNat_testBit e i
      have hdiv : e / 2 ^ (i + 1) = e / 2 ^ i / 2 := by
        rw [pow_succ, Nat.div_div_eq_div_mul]
      omega
    apply ih
    rw [hstep]
    cases e.testBit i
    · simpa using hsq
    · simp only [if_true, Bool.toNat_true, pow_succ, hsq]
      rw [Nat.mul_mod, Nat.mod_mod, ← Nat.mul_mod]

theorem powMod_eq {m b e : Nat} (he : e < 2 ^ 256) : powMod m b e = b ^ e % m := by
  apply powModLoop_eq
  rw [Nat.div_eq_of_lt he, pow_zero]

/-- The test of one Pratt certificate: a has order N - 1 modulo N, where the primes `fs` multiply to N - 1. -/
def prattTest (N a : Nat) (fs : List Nat) : Bool :=
  decide (1 < N) && decide (N < 2 ^ 256) && decide (fs.prod = N - 1) && decide (powMod N a (N - 1) = 1) &&
    fs.all fun q => decide (powMod N a ((N - 1) / q) ≠ 1)

theorem prime_of_pratt {N : Nat} (a : Nat) (fs : List Nat) (hfs : ∀ q ∈ fs, q.Prime)
    (h : prattTest N a fs = true) : N.Prime := by
  simp only [prattTest, Bool.and_eq_true, decide_eq_true_eq, List.all_eq_true] at h
  obtain ⟨⟨⟨⟨hN, hlt⟩, hprod⟩, hone⟩, hne⟩ := h
  have hcast : ∀ e, ((a : ZMod N)) ^ e = 1 ↔ a ^ e % N = 1 := by
    intro e
    rw [← Nat.cast_pow, ← Nat.cast_one (R := ZMod N), ZMod.natCast_eq_natCast_iff, Nat.ModEq, Nat.mod_eq_of_lt hN]
  refine lucas_primality N (a : ZMod N) ?_ ?_
  · rw [hcast, ← powMod_eq (by omega)]
    exact hone
  · intro q hq hdvd
    rw [Ne, hcast, ← powMod_eq ((Nat.div_le_self _ _).trans_lt (by omega))]
    rw [← hprod, hq.prime.dvd_prod_iff] at hdvd
    obtain ⟨r, hr, hqr⟩ := hdvd
    obtain rfl : q = r := (Nat.prime_dvd_prime_iff_eq hq (hfs r hr)).mp hqr
    exact hne q hr

theorem prime_1206781 : Nat.Prime 1206781 := by
  refine prime_of_pratt 10 [2, 2, 3, 5, 20113] ?_ (by decide +kernel)
  simp only [List.mem_cons, List.not_mem_nil, or_false, forall_eq_or_imp, forall_eq]
  exact ⟨by norm_num, by norm_num, by norm_num, by norm_num, by norm_num⟩

theorem prime_1627771 : Nat.Prime 1627771 := by
  refine prime_of_pratt 3 [2, 3, 5, 29, 1871] ?_ (by decide +kernel)
  simp only [List.mem_cons, List.not_mem_nil, or_false, forall_eq_or_imp, forall_eq]
  exact ⟨by norm_num, by norm_num, by norm_num, by norm_num, by norm_num⟩

theorem prime_4681609 : Nat.Prime 4681609 := by
  refine prime_of_pratt 23 [2, 2, 2, 3, 97, 2011] ?_ (by decide +kernel)
  simp only [List.mem_cons, List.not_mem_nil, or_false, forall_eq_or_imp, forall_eq]
  exact ⟨by norm_num, by norm_num, by norm_num, by norm_num, by norm_num, by norm_num⟩

theorem prime_7240687 : Nat.Prime 7240687 := by
  refine prime_of_pratt 3 [2, 3, 1206781] ?_ (by decide +kernel)
  simp only [List.mem_cons, List.not_mem_nil, or_false, forall_eq_or_imp, forall_eq]
  exact ⟨by norm_num, by norm_num, prime_1206781⟩

theorem prime_13331831 : Nat.Prime 13331831 := by
  refine prime_of_pratt 13 [2, 5, 971, 1373] ?_ (by decide +kernel)
  simp only [List.mem_cons, List.not_mem_nil, or_false, forall_eq_or_imp, forall_eq]
  exact ⟨by norm_num, by norm_num, by norm_num, by norm_num⟩

theorem prime_44706919 : Nat.Prime 44706919 := by
  refine prime_of_pratt 6 [2, 3, 797, 9349] ?_ (by decide +kernel)
  simp only [List.mem_cons, List.not_mem_nil, or_false, forall_eq_or_imp, forall_eq]
  exact ⟨by norm_num, by norm_num, by norm_num, by norm_num⟩

theorem prime_107590001 : Nat.Prime 107590001 := by
  refine prime_of_pratt 3 [2, 2, 2, 2, 5, 5, 5, 5, 7, 29, 53] ?_ (by decide +kernel)
  simp only [List.mem_cons, List.not_mem_nil, or_false, forall_eq_or_imp, forall_eq]
  exact ⟨by norm_num, by norm_num, by norm_num, by norm_num, by norm_num, by norm_num, by norm_num, by norm_num, by norm_num, by norm_num, by norm_num⟩

theorem prime_545358713 : Nat.Prime 545358713 := by
  refine prime_of_pratt 5 [2, 2, 2, 41, 59, 28181] ?_ (by decide +kernel)
  simp only [List.mem_cons, List.not_mem_nil, or_false, forall_eq_or_imp, forall_eq]
  exact ⟨by norm_num, by norm_num, by norm_num, by norm_num, by norm_num, by norm_num⟩

theorem prime_297159362677 : Nat.Prime 297159362677 := by
  refine prime_of_pratt 2 [2, 2, 3, 3, 11, 461, 1627771] ?_ (by decide +kernel)
  simp only [List.mem_cons, List.not_mem_nil, or_false, forall_eq_or_imp, forall_eq]
  exact ⟨by norm_num, by norm_num, by norm_num, by norm_num, by norm_num, by norm_num, prime_1627771⟩

theorem prime_factor_10 : Nat.Prime 107361793816595537 := by
  refine prime_of_pratt 3 [2, 2, 2, 2, 16699, 85831, 4681609] ?_ (by decide +kernel)
  simp only [List.mem_cons, List.not_mem_nil, or_false, forall_eq_or_imp, forall_eq]
  exact ⟨by norm_num, by norm_num, by norm_num, by norm_num, by norm_num, by norm_num, prime_4681609⟩

theorem prime_factor_11 : Nat.Prime 173378833005251801 := by
  refine prime_of_pratt 6 [2, 2, 2, 5, 5, 2621, 24809, 13331831] ?_ (by decide +kernel)
  simp only [List.mem_cons, List.not_mem_nil, or_false, forall_eq_or_imp, forall_eq]
  exact ⟨by norm_num, by norm_num, by norm_num, by norm_num, by norm_num, by norm_num, by norm_num, prime_13331831⟩

theorem prime_factor_12 : Nat.Prime 174723607534414371449 := by
  refine prime_of_pratt 3 [2, 2, 2, 17, 59, 4051, 120233, 44706919] ?_ (by decide +kernel)
  simp only [List.mem_cons, List.not_mem_nil, or_false, forall_eq_or_imp, forall_eq]
  exact ⟨by norm_num, by norm_num, by norm_num, by norm_num, by norm_num, by norm_num, by norm_num, prime_44706919⟩

theorem prime_factor_13 : Nat.Prime 22149492674086928081353 := by
  refine prime_of_pratt 5 [2, 2, 2, 3, 5323, 173378833005251801] ?_ (by decide +kernel)
  simp only [List.mem_cons, List.not_mem_nil, or_false, forall_eq_or_imp, forall_eq]
  exact ⟨by norm_num, by norm_num, by norm_num, by norm_num, by norm_num, prime_factor_11⟩

theorem prime_factor_14 : Nat.Prime 132896956044521568488119 := by
  refine prime_of_pratt 6 [2, 3, 22149492674086928081353] ?_ (by decide +kernel)
  simp only [List.mem_cons, List.not_mem_nil, or_false, forall_eq_or_imp, forall_eq]
  exact ⟨by norm_num, by norm_num, prime_factor_13⟩

theorem prime_factor_15 : Nat.Prime 29047611873442575647497758179 := by
  refine prime_of_pratt 2 [2, 293, 305873, 545358713, 297159362677] ?_ (by decide +kernel)
  simp only [List.mem_cons, List.not_mem_nil, or_false, forall_eq_or_imp, forall_eq]
  exact ⟨by norm_num, by norm_num, by norm_num, prime_545358713, prime_297159362677⟩

theorem prime_factor_16 : Nat.Prime 341948486974166000522343609283189 := by
  refine prime_of_pratt 2 [2, 2, 3, 3, 3, 109, 29047611873442575647497758179] ?_ (by decide +kernel)
  simp only [List.mem_cons, List.not_mem_nil, or_false, forall_eq_or_imp, forall_eq]
  exact ⟨by norm_num, by norm_num, by norm_num, by norm_num, by norm_num, by norm_num, prime_factor_15⟩

theorem prime_factor_17 : Nat.Prime 255515944373312847190720520512484175977 := by
  refine prime_of_pratt 3 [2, 2, 2, 7, 7, 11, 1627, 2657, 4423, 41201, 96557, 7240687, 107590001] ?_ (by decide +kernel)
  simp only [List.mem_cons, List.not_mem_nil, or_false, forall_eq_or_imp, forall_eq]
  exact ⟨by norm_num, by norm_num, by norm_num, by norm_num, by norm_num, by norm_num, by norm_num, by norm_num, by norm_num, by norm_num, by norm_num, prime_7240687, prime_107590001⟩

theorem prime_factor_18 : Nat.Prime 205115282021455665897114700593932402728804164701536103180137503955397371 := by
  refine prime_of_pratt 10 [2, 3, 5, 29, 29, 31, 7723, 132896956044521568488119, 255515944373312847190720520512484175977] ?_ (by decide +kernel)
  simp only [List.mem_cons, List.not_mem_nil, or_false, forall_eq_or_imp, forall_eq]
  exact ⟨by norm_num, by norm_num, by norm_num, by norm_num, by norm_num, by norm_num, by norm_num, prime_factor_14, prime_factor_17⟩

theorem prime_n : Nat.Prime Config.n := by
  refine prime_of_pratt 7 [2, 2, 2, 2, 2, 2, 3, 149, 631, 107361793816595537, 174723607534414371449, 341948486974166000522343609283189] ?_ (by decide +kernel)
  simp only [List.mem_cons, List.not_mem_nil, or_false, forall_eq_or_imp, forall_eq]
  exact ⟨by norm_num, by norm_num, by norm_num, by norm_num, by norm_num, by norm_num, by norm_num, by norm_num, by norm_num, prime_factor_10, prime_factor_12, prime_factor_16⟩

theorem prime_p : Nat.Prime Config.p := by
  refine prime_of_pratt 3 [2, 3, 7, 13441, 205115282021455665897114700593932402728804164701536103180137503955397371] ?_ (by decide +kernel)
  simp only [List.mem_cons, List.not_mem_nil, or_false, forall_eq_or_imp, forall_eq]
  exact ⟨by norm_num, by norm_num, by norm_num, by norm_num, prime_factor_18⟩

/-- 00_scope.md R11: modInv is the b with 0 < b < m and (a * b) mod m = 1. -/
theorem modInv_spec {m a : Nat} (hm : m.Prime) (hlt : m < 2 ^ 256) (h0 : 0 < a) (ha : a < m) :
    0 < modInv m a ∧ modInv m a < m ∧ a * modInv m a % m = 1 := by
  have hval : modInv m a = a ^ (m - 2) % m := powMod_eq (by omega)
  have h2 := hm.two_le
  have hmul : a * modInv m a % m = 1 := by
    have : Fact m.Prime := ⟨hm⟩
    have ha0 : (a : ZMod m) ≠ 0 := by
      rw [Ne, ZMod.natCast_eq_zero_iff]
      exact fun hd => absurd (Nat.le_of_dvd h0 hd) (by omega)
    have hfermat := ZMod.pow_card_sub_one_eq_one ha0
    rw [hval, Nat.mul_mod_mod, ← pow_succ', show m - 2 + 1 = m - 1 by omega]
    rw [← Nat.cast_pow, ← Nat.cast_one (R := ZMod m), ZMod.natCast_eq_natCast_iff, Nat.ModEq,
      Nat.mod_eq_of_lt (by omega : 1 < m)] at hfermat
    exact hfermat
  refine ⟨?_, ?_, hmul⟩
  · rcases Nat.eq_zero_or_pos (modInv m a) with h | h
    · rw [h] at hmul
      simp at hmul
    · exact h
  · rw [hval]
    exact Nat.mod_lt _ (by omega)

end Sys2Proof.Laws
end

