-- ==== Sys2Proof/Laws/Group.lean ====
section
/-! SUPPORT. The group law of 41_point.md R121 is the group law of Mathlib's curve y^2 = x^3 + 7 over ZMod p:
addition, doubling and negation keep the curve and are the group's operations. -/

namespace Sys2Proof.Laws

open Sys2Proof.Machine

/-! ## modZ -/

theorem modZ_cast (m : Nat) (hm : 0 < m) (k : Int) : ((modZ m k : Nat) : Int) = k % m :=
  Int.toNat_of_nonneg (Int.emod_nonneg k (by omega))

theorem modZ_lt {m : Nat} (hm : 0 < m) (k : Int) : modZ m k < m := by
  have h1 := modZ_cast m hm k
  have h2 := Int.emod_lt_of_pos k (b := (m : Int)) (by omega)
  omega

theorem modZ_natCast (m k : Nat) : modZ m (k : Int) = k % m := by
  rw [modZ, ← Int.natCast_mod, Int.toNat_natCast]

theorem p_pos : 0 < Config.p := by decide

theorem p_lt : Config.p < 2 ^ 256 := by decide

theorem n_pos : 0 < Config.n := by decide

theorem n_lt : Config.n < 2 ^ 256 := by decide

theorem modP_lt (k : Int) : modP k < Config.p := modZ_lt p_pos k

theorem modP_zmod (k : Int) : ((modP k : Nat) : ZMod Config.p) = (k : ZMod Config.p) := by
  have h : ((modP k : Nat) : Int) = k % (Config.p : Int) := modZ_cast _ p_pos k
  rw [← Int.cast_natCast, h]
  exact ZMod.intCast_mod k Config.p

theorem modP_eq_zero_iff (k : Int) : modP k = 0 ↔ (k : ZMod Config.p) = 0 := by
  rw [← modP_zmod, ZMod.natCast_eq_zero_iff]
  constructor
  · intro h
    rw [h]
    exact Nat.dvd_zero _
  · exact fun h => Nat.eq_zero_of_dvd_of_lt h (modP_lt k)

theorem natCast_inj_of_lt {x y : Nat} (hx : x < Config.p) (hy : y < Config.p) :
    (x : ZMod Config.p) = (y : ZMod Config.p) ↔ x = y := by
  rw [ZMod.natCast_eq_natCast_iff, Nat.ModEq, Nat.mod_eq_of_lt hx, Nat.mod_eq_of_lt hy]

/-! ## The curve -/

/-- y^2 = x^3 + 7 over ZMod p. -/
def curve : WeierstrassCurve.Affine (ZMod Config.p) := ⟨0, 0, 0, 0, 7⟩

theorem curveEq_iff (x y : Nat) :
    curveEq x y = true ↔ (y : ZMod Config.p) ^ 2 = (x : ZMod Config.p) ^ 3 + 7 := by
  rw [curveEq, decide_eq_true_iff, modP_eq_zero_iff, Config.a, Config.b]
  push_cast
  constructor <;> intro h <;> linear_combination h

theorem curve_equation_iff (x y : ZMod Config.p) : curve.Equation x y ↔ y ^ 2 = x ^ 3 + 7 := by
  rw [WeierstrassCurve.Affine.equation_iff]
  simp [curve]

theorem onCurve_affine_iff (x y : Nat) : onCurve (.affine x y) = true ↔
    x < Config.p ∧ y < Config.p ∧ curve.Equation (x : ZMod Config.p) (y : ZMod Config.p) := by
  rw [curve_equation_iff, ← curveEq_iff]
  simp [onCurve, and_assoc]

theorem curve_Δ_ne_zero : curve.Δ ≠ 0 := by
  have h : curve.Δ = ((-21168 : Int) : ZMod Config.p) := by
    simp only [curve, WeierstrassCurve.Δ, WeierstrassCurve.b₂, WeierstrassCurve.b₄, WeierstrassCurve.b₆,
      WeierstrassCurve.b₈]
    push_cast
    ring
  rw [h, Ne, ZMod.intCast_zmod_eq_zero_iff_dvd]
  decide

theorem nonsingular_of_equation {x y : ZMod Config.p} (h : curve.Equation x y) : curve.Nonsingular x y :=
  (WeierstrassCurve.Affine.equation_iff_nonsingular_of_Δ_ne_zero curve_Δ_ne_zero).mp h

section

variable [Fact (Nat.Prime Config.p)]

open scoped Classical in
/-- The element of the curve's group a point value is; O for a value not on the curve. -/
noncomputable def toGroup : Point → curve.Point
  | .infinity => 0
  | .affine x y =>
    if h : curve.Nonsingular (x : ZMod Config.p) (y : ZMod Config.p) then .some _ _ h else 0

@[simp] theorem toGroup_infinity : toGroup .infinity = 0 := rfl

theorem toGroup_affine {x y : Nat} (h : curve.Nonsingular (x : ZMod Config.p) (y : ZMod Config.p)) :
    toGroup (.affine x y) = .some _ _ h := dif_pos h

theorem toGroup_affine_of_eq {x y : Nat} {X Y : ZMod Config.p} (h : curve.Nonsingular X Y)
    (hx : (x : ZMod Config.p) = X) (hy : (y : ZMod Config.p) = Y) : toGroup (.affine x y) = .some X Y h := by
  subst hx hy
  exact toGroup_affine h

/-- A value on the curve, seen in the group. -/
theorem onCurve_cases {A : Point} (h : onCurve A = true) : A = .infinity ∨
    ∃ x y, A = .affine x y ∧ x < Config.p ∧ y < Config.p ∧
      ∃ hn : curve.Nonsingular (x : ZMod Config.p) (y : ZMod Config.p), toGroup A = .some _ _ hn := by
  cases A with
  | infinity => exact .inl rfl
  | affine x y =>
    obtain ⟨hx, hy, he⟩ := (onCurve_affine_iff x y).mp h
    exact .inr ⟨x, y, rfl, hx, hy, nonsingular_of_equation he, toGroup_affine _⟩

theorem toGroup_injective {A B : Point} (hA : onCurve A = true) (hB : onCurve B = true)
    (h : toGroup A = toGroup B) : A = B := by
  rcases onCurve_cases hA with rfl | ⟨x, y, rfl, hx, hy, hn, hg⟩ <;>
    rcases onCurve_cases hB with rfl | ⟨x', y', rfl, hx', hy', hn', hg'⟩
  · rfl
  · rw [hg', toGroup_infinity] at h
    exact absurd h.symm (WeierstrassCurve.Affine.Point.some_ne_zero hn')
  · rw [hg, toGroup_infinity] at h
    exact absurd h (WeierstrassCurve.Affine.Point.some_ne_zero hn)
  · rw [hg, hg', WeierstrassCurve.Affine.Point.some.injEq, natCast_inj_of_lt hx hx', natCast_inj_of_lt hy hy'] at h
    rw [h.1, h.2]

/-- modInv is the inverse in the field, for a non-zero residue. -/
theorem modInv_cast (k : Int) (hk : (k : ZMod Config.p) ≠ 0) :
    ((modInv Config.p (modP k) : Nat) : ZMod Config.p) = (k : ZMod Config.p)⁻¹ := by
  have h0 : 0 < modP k := Nat.pos_of_ne_zero fun h => hk ((modP_eq_zero_iff k).mp h)
  have hspec := (modInv_spec prime_p p_lt h0 (modP_lt k)).2.2
  have hcast : ((modP k * modInv Config.p (modP k) : Nat) : ZMod Config.p) = ((1 : Nat) : ZMod Config.p) := by
    rw [ZMod.natCast_eq_natCast_iff, Nat.ModEq, hspec]
    decide
  rw [Nat.cast_mul, modP_zmod, Nat.cast_one] at hcast
  exact (inv_eq_of_mul_eq_one_right hcast).symm

theorem two_ne_zero_p : (2 : ZMod Config.p) ≠ 0 := by
  have h : ((2 : Int) : ZMod Config.p) ≠ 0 := by
    rw [Ne, ZMod.intCast_zmod_eq_zero_iff_dvd]
    decide
  exact_mod_cast h

theorem curve_negY (x y : ZMod Config.p) : curve.negY x y = -y := by
  simp [WeierstrassCurve.Affine.negY, curve]

theorem curve_addX (x x' l : ZMod Config.p) : curve.addX x x' l = l * l - x - x' := by
  simp [WeierstrassCurve.Affine.addX, curve]
  ring

theorem curve_addY (x x' y l : ZMod Config.p) : curve.addY x x' y l = l * (x - (l * l - x - x')) - y := by
  rw [WeierstrassCurve.Affine.addY, curve_negY, WeierstrassCurve.Affine.negAddY, curve_addX]
  ring

/-- `chord` computes the sum's coordinates, given that its slope is the curve's. -/
theorem chord_spec {l x1 y1 x2 : Nat} {X Y : ZMod Config.p} {y2 : ZMod Config.p} (h : curve.Nonsingular X Y)
    (hl : (l : ZMod Config.p) = curve.slope x1 x2 y1 y2)
    (hX : X = curve.addX x1 x2 (curve.slope x1 x2 y1 y2)) (hY : Y = curve.addY x1 x2 y1 (curve.slope x1 x2 y1 y2)) :
    onCurve (chord l x1 y1 x2) = true ∧ toGroup (chord l x1 y1 x2) = .some X Y h := by
  have hx3 : ((modP ((l : Int) * l - x1 - x2) : Nat) : ZMod Config.p) = X := by
    rw [modP_zmod, hX, ← hl, curve_addX]
    push_cast
    ring
  have hy3 : ((modP ((l : Int) * ((x1 : Int) - (modP ((l : Int) * l - x1 - x2) : Nat)) - y1) : Nat) :
      ZMod Config.p) = Y := by
    rw [modP_zmod, hY, ← hl, curve_addY]
    push_cast
    rw [hx3, hX, ← hl, curve_addX]
  refine ⟨?_, toGroup_affine_of_eq h hx3 hy3⟩
  rw [chord, onCurve_affine_iff]
  refine ⟨modP_lt _, modP_lt _, ?_⟩
  rw [hx3, hy3]
  exact h.1

theorem negE_spec {A : Point} (hA : onCurve A = true) :
    onCurve (negE A) = true ∧ toGroup (negE A) = -toGroup A := by
  rcases onCurve_cases hA with rfl | ⟨x, y, rfl, hx, hy, hn, hg⟩
  · exact ⟨rfl, by simp [negE]⟩
  · have hc : ((modP (0 - (y : Int)) : Nat) : ZMod Config.p) = curve.negY x y := by
      rw [modP_zmod, curve_negY]
      push_cast
      ring
    have hn' := (WeierstrassCurve.Affine.nonsingular_neg (W' := curve) (x : ZMod Config.p) y).mpr hn
    rw [hg, WeierstrassCurve.Affine.Point.neg_some]
    refine ⟨?_, toGroup_affine_of_eq hn' rfl hc⟩
    rw [negE, onCurve_affine_iff]
    refine ⟨hx, modP_lt _, ?_⟩
    rw [hc]
    exact hn'.1

theorem dbl_spec {A : Point} (hA : onCurve A = true) :
    onCurve (dbl A) = true ∧ toGroup (dbl A) = toGroup A + toGroup A := by
  rcases onCurve_cases hA with rfl | ⟨x, y, rfl, hx, hy, hn, hg⟩
  · exact ⟨rfl, by simp [dbl]⟩
  · have hy0 : (y : ZMod Config.p) = curve.negY x y ↔ y = 0 := by
      rw [curve_negY, eq_neg_iff_add_eq_zero, ← two_mul, mul_eq_zero, or_iff_right two_ne_zero_p]
      rw [← natCast_inj_of_lt hy p_pos, Nat.cast_zero]
    rw [hg, dbl]
    split
    · rename_i h0
      refine ⟨rfl, ?_⟩
      rw [toGroup_infinity, WeierstrassCurve.Affine.Point.add_self_of_Y_eq (hy0.mpr h0)]
    · rename_i h0
      have hne : (y : ZMod Config.p) ≠ curve.negY x y := fun e => h0 (hy0.mp e)
      have hcond : ¬((x : ZMod Config.p) = x ∧ (y : ZMod Config.p) = curve.negY x y) := fun e => hne e.2
      have hy0' : ((2 * (y : Int) : Int) : ZMod Config.p) ≠ 0 := by
        push_cast
        exact mul_ne_zero two_ne_zero_p fun e =>
          h0 ((natCast_inj_of_lt hy p_pos).mp (by rw [e, Nat.cast_zero]))
      rw [WeierstrassCurve.Affine.Point.add_some hcond]
      refine chord_spec _ ?_ rfl rfl
      rw [WeierstrassCurve.Affine.slope_of_Y_ne rfl hne, modP_zmod]
      push_cast
      rw [modInv_cast _ hy0', curve_negY]
      simp only [curve, Config.a]
      push_cast
      rw [div_eq_mul_inv]
      ring_nf
  
theorem addE_spec {A B : Point} (hA : onCurve A = true) (hB : onCurve B = true) :
    onCurve (addE A B) = true ∧ toGroup (addE A B) = toGroup A + toGroup B := by
  rcases onCurve_cases hA with rfl | ⟨x1, y1, rfl, hx1, hy1, hn1, hg1⟩
  · exact ⟨by simpa [addE] using hB, by simp [addE]⟩
  rcases onCurve_cases hB with rfl | ⟨x2, y2, rfl, hx2, hy2, hn2, hg2⟩
  · exact ⟨by simpa [addE] using hA, by simp [addE]⟩
  rw [addE]
  have hsum : modP ((y1 : Int) + y2) = 0 ↔ (y1 : ZMod Config.p) = curve.negY x2 y2 := by
    rw [modP_eq_zero_iff, curve_negY, eq_neg_iff_add_eq_zero]
    push_cast
    rfl
  split
  · rename_i h
    refine ⟨rfl, ?_⟩
    rw [toGroup_infinity, hg1, hg2]
    refine (WeierstrassCurve.Affine.Point.add_of_Y_eq ?_ (hsum.mp h.2)).symm
    rw [h.1]
  · rename_i h
    split
    · rename_i hx
      subst hx
      have hne : (y1 : ZMod Config.p) ≠ curve.negY x1 y2 := fun e => h ⟨rfl, hsum.mpr e⟩
      have hy : y1 = y2 := (natCast_inj_of_lt hy1 hy2).mp
        (WeierstrassCurve.Affine.Y_eq_of_Y_ne hn1.1 hn2.1 rfl hne)
      subst hy
      exact dbl_spec hA
    · rename_i hx
      have hx' : (x1 : ZMod Config.p) ≠ x2 := fun e => hx ((natCast_inj_of_lt hx1 hx2).mp e)
      have hcond : ¬((x1 : ZMod Config.p) = x2 ∧ (y1 : ZMod Config.p) = curve.negY x2 y2) := fun e => hx' e.1
      have hd : (((x2 : Int) - x1 : Int) : ZMod Config.p) ≠ 0 := by
        push_cast
        exact sub_ne_zero.mpr hx'.symm
      rw [hg1, hg2, WeierstrassCurve.Affine.Point.add_some hcond]
      refine chord_spec _ ?_ rfl rfl
      rw [WeierstrassCurve.Affine.slope_of_X_ne hx', modP_zmod]
      push_cast
      rw [modInv_cast _ hd]
      push_cast
      rw [← neg_sub (y1 : ZMod Config.p), ← neg_sub (x1 : ZMod Config.p), inv_neg, neg_mul_neg, div_eq_mul_inv]

end

/-! ## No point has y = 0 -/

/-- -7 is no cube mod p, so no point of the curve has y = 0 (41_point.md R121). -/
theorem y_ne_zero {x y : Nat} (h : onCurve (.affine x y) = true) : y ≠ 0 := by
  rintro rfl
  have he := (curve_equation_iff _ _).1 ((onCurve_affine_iff x 0).1 h).2.2
  have : Fact (Nat.Prime Config.p) := ⟨prime_p⟩
  have hcube : (x : ZMod Config.p) ^ 3 = ((Config.p - 7 : Nat) : ZMod Config.p) := by
    rw [Nat.cast_sub (by decide), ZMod.natCast_self]
    push_cast at he ⊢
    linear_combination -he
  have hx : (x : ZMod Config.p) ≠ 0 := by
    intro h0
    rw [h0] at hcube
    have h7 : ((Config.p - 7 : Nat) : ZMod Config.p) = 0 := by simpa using hcube.symm
    rw [ZMod.natCast_eq_zero_iff] at h7
    exact absurd (Nat.le_of_dvd (by decide) h7) (by decide)
  have hpow : (((Config.p - 7) ^ ((Config.p - 1) / 3) : Nat) : ZMod Config.p) = ((1 : Nat) : ZMod Config.p) := by
    rw [Nat.cast_pow, ← hcube, ← pow_mul, show 3 * ((Config.p - 1) / 3) = Config.p - 1 from by decide, Nat.cast_one]
    exact ZMod.pow_card_sub_one_eq_one hx
  rw [ZMod.natCast_eq_natCast_iff, Nat.ModEq, ← powMod_eq (by decide)] at hpow
  exact absurd hpow (by decide +kernel)

/-- Only O is doubled to O. -/
theorem dbl_eq_infinity {A : Point} (h : onCurve A = true) : dbl A = .infinity ↔ A = .infinity := by
  cases A with
  | infinity => exact iff_of_true rfl rfl
  | affine x y =>
    rw [dbl, if_neg (y_ne_zero h)]
    exact iff_of_false nofun nofun

end Sys2Proof.Laws
end

