-- ==== Sys2Proof/Laws/PerInstr.lean ====
section
/-! SUPPORT. Statements made instruction by instruction: every well-formed command's word is a word of one row of
the opcode map (30_encoding.md R84). -/

namespace Sys2Proof.Laws.WordInItsRow

/-- The command's word has the OPC, and under the mask the match, of a row of the map. -/
def Statement (i : Instr) : Prop :=
  i.wellFormed = true →
    ∃ r ∈ opcodeMap, r.opc = opcField (encode i) ∧ encode i &&& r.mask = r.pattern

/-- A word made of its row's OPC whose fields vanish under the mask's fields is a word of the row. -/
theorem of_row {i : Instr} {o : BitVec 6} {d a b : Fin 16} {sel : BitVec 2} {imm : BitVec 12} (r : Row)
    (he : encode i = cmdWord o d a b sel imm) (hr : rowOf o = some r)
    (hm : cmdWord o d a b sel imm &&& r.mask = r.pattern) : Statement i := by
  intro _
  refine ⟨r, List.mem_of_find?_eq_some hr, ?_, by rw [he, hm]⟩
  rw [he, opcField_cmdWord]
  have hf := List.find?_some hr
  exact eq_of_beq hf

theorem nop : Statement .nop := by
  refine of_row ⟨0, 0x0, 0xffffffff, _⟩ rfl rfl ?_
  rw [show (0xffffffff : Word32) = cmdWord 63 15 15 15 3 4095 by decide, cmdWord_and]
  simp
  decide

theorem madd (m : Modulus) (d a b : VReg) : Statement (.madd m d a b) := by
  refine of_row ⟨1, 0x4000000, 0xfc002fff, _⟩ rfl rfl ?_
  rw [show (0xfc002fff : Word32) = cmdWord 63 0 0 0 2 4095 by decide, cmdWord_and]
  cases m <;> simp [selOfModulus] <;> decide

theorem msub (m : Modulus) (d a b : VReg) : Statement (.msub m d a b) := by
  refine of_row ⟨2, 0x8000000, 0xfc002fff, _⟩ rfl rfl ?_
  rw [show (0xfc002fff : Word32) = cmdWord 63 0 0 0 2 4095 by decide, cmdWord_and]
  cases m <;> simp [selOfModulus] <;> decide

theorem mmul (m : Modulus) (d a b : VReg) : Statement (.mmul m d a b) := by
  refine of_row ⟨3, 0xc000000, 0xfc002fff, _⟩ rfl rfl ?_
  rw [show (0xfc002fff : Word32) = cmdWord 63 0 0 0 2 4095 by decide, cmdWord_and]
  cases m <;> simp [selOfModulus] <;> decide

theorem msqr (m : Modulus) (d a : VReg) : Statement (.msqr m d a) := by
  refine of_row ⟨4, 0x10000000, 0xfc03efff, _⟩ rfl rfl ?_
  rw [show (0xfc03efff : Word32) = cmdWord 63 0 0 15 2 4095 by decide, cmdWord_and]
  cases m <;> simp [selOfModulus] <;> decide

theorem minv (m : Modulus) (d a : VReg) : Statement (.minv m d a) := by
  refine of_row ⟨5, 0x14000000, 0xfc03efff, _⟩ rfl rfl ?_
  rw [show (0xfc03efff : Word32) = cmdWord 63 0 0 15 2 4095 by decide, cmdWord_and]
  cases m <;> simp [selOfModulus] <;> decide

theorem mneg (m : Modulus) (d a : VReg) : Statement (.mneg m d a) := by
  refine of_row ⟨6, 0x18000000, 0xfc03efff, _⟩ rfl rfl ?_
  rw [show (0xfc03efff : Word32) = cmdWord 63 0 0 15 2 4095 by decide, cmdWord_and]
  cases m <;> simp [selOfModulus] <;> decide

theorem mred (m : Modulus) (d a : VReg) : Statement (.mred m d a) := by
  refine of_row ⟨7, 0x1c000000, 0xfc03efff, _⟩ rfl rfl ?_
  rw [show (0xfc03efff : Word32) = cmdWord 63 0 0 15 2 4095 by decide, cmdWord_and]
  cases m <;> simp [selOfModulus] <;> decide

theorem mov (d a : VReg) : Statement (.mov d a) := by
  refine of_row ⟨8, 0x20000000, 0xfc03ffff, _⟩ rfl rfl ?_
  rw [show (0xfc03ffff : Word32) = cmdWord 63 0 0 15 3 4095 by decide, cmdWord_and]
  simp
  decide

theorem ldi (d : VReg) (imm : Nat) : Statement (.ldi d imm) := by
  refine of_row ⟨9, 0x24000000, 0xfc3ff000, _⟩ rfl rfl ?_
  rw [show (0xfc3ff000 : Word32) = cmdWord 63 0 15 15 3 0 by decide, cmdWord_and]
  simp
  decide

theorem ldc (d : VReg) (c : CurveConst) : Statement (.ldc d c) := by
  refine of_row ⟨10, 0x28000000, 0xfc3ffff8, _⟩ rfl rfl ?_
  rw [show (0xfc3ffff8 : Word32) = cmdWord 63 0 15 15 3 4088 by decide, cmdWord_and]
  cases c <;> simp [immOfConst] <;> decide

theorem cmp (a b : VReg) : Statement (.cmp a b) := by
  refine of_row ⟨11, 0x2c000000, 0xffc03fff, _⟩ rfl rfl ?_
  rw [show (0xffc03fff : Word32) = cmdWord 63 15 0 0 3 4095 by decide, cmdWord_and]
  simp
  decide

theorem pld (d : PReg) (a b : VReg) : Statement (.pld d a b) := by
  refine of_row ⟨16, 0x40000000, 0xfc003fff, _⟩ rfl rfl ?_
  rw [show (0xfc003fff : Word32) = cmdWord 63 0 0 0 3 4095 by decide, cmdWord_and]
  simp
  decide

theorem pinf (d : PReg) : Statement (.pinf d) := by
  refine of_row ⟨17, 0x44000000, 0xfc3fffff, _⟩ rfl rfl ?_
  rw [show (0xfc3fffff : Word32) = cmdWord 63 0 15 15 3 4095 by decide, cmdWord_and]
  simp
  decide

theorem pgen (d : PReg) : Statement (.pgen d) := by
  refine of_row ⟨18, 0x48000000, 0xfc3fffff, _⟩ rfl rfl ?_
  rw [show (0xfc3fffff : Word32) = cmdWord 63 0 15 15 3 4095 by decide, cmdWord_and]
  simp
  decide

theorem px (d : VReg) (a : PReg) : Statement (.px d a) := by
  refine of_row ⟨19, 0x4c000000, 0xfc03ffff, _⟩ rfl rfl ?_
  rw [show (0xfc03ffff : Word32) = cmdWord 63 0 0 15 3 4095 by decide, cmdWord_and]
  simp
  decide

theorem py (d : VReg) (a : PReg) : Statement (.py d a) := by
  refine of_row ⟨20, 0x50000000, 0xfc03ffff, _⟩ rfl rfl ?_
  rw [show (0xfc03ffff : Word32) = cmdWord 63 0 0 15 3 4095 by decide, cmdWord_and]
  simp
  decide

theorem padd (d a b : PReg) : Statement (.padd d a b) := by
  refine of_row ⟨21, 0x54000000, 0xfc003fff, _⟩ rfl rfl ?_
  rw [show (0xfc003fff : Word32) = cmdWord 63 0 0 0 3 4095 by decide, cmdWord_and]
  simp
  decide

theorem pdbl (d a : PReg) : Statement (.pdbl d a) := by
  refine of_row ⟨22, 0x58000000, 0xfc03ffff, _⟩ rfl rfl ?_
  rw [show (0xfc03ffff : Word32) = cmdWord 63 0 0 15 3 4095 by decide, cmdWord_and]
  simp
  decide

theorem ptpl (d a b : PReg) : Statement (.ptpl d a b) := by
  refine of_row ⟨23, 0x5c000000, 0xfc003fff, _⟩ rfl rfl ?_
  rw [show (0xfc003fff : Word32) = cmdWord 63 0 0 0 3 4095 by decide, cmdWord_and]
  simp
  decide

theorem pneg (d a : PReg) : Statement (.pneg d a) := by
  refine of_row ⟨24, 0x60000000, 0xfc03ffff, _⟩ rfl rfl ?_
  rw [show (0xfc03ffff : Word32) = cmdWord 63 0 0 15 3 4095 by decide, cmdWord_and]
  simp
  decide

theorem pnorm (d a : PReg) : Statement (.pnorm d a) := by
  refine of_row ⟨25, 0x64000000, 0xfc03ffff, _⟩ rfl rfl ?_
  rw [show (0xfc03ffff : Word32) = cmdWord 63 0 0 15 3 4095 by decide, cmdWord_and]
  simp
  decide

theorem ppow2 (d a : PReg) (count : Nat) : Statement (.ppow2 d a count) := by
  refine of_row ⟨26, 0x68000000, 0xfc03f000, _⟩ rfl rfl ?_
  rw [show (0xfc03f000 : Word32) = cmdWord 63 0 0 15 3 0 by decide, cmdWord_and]
  simp
  decide

theorem peq (a b : PReg) : Statement (.peq a b) := by
  refine of_row ⟨27, 0x6c000000, 0xffc03fff, _⟩ rfl rfl ?_
  rw [show (0xffc03fff : Word32) = cmdWord 63 15 0 0 3 4095 by decide, cmdWord_and]
  simp
  decide

theorem pmul (alg : Algorithm) (d a : PReg) (b : VReg) : Statement (.pmul alg d a b) := by
  refine of_row ⟨32, 0x80000000, 0xfc000fff, _⟩ rfl rfl ?_
  rw [show (0xfc000fff : Word32) = cmdWord 63 0 0 0 0 4095 by decide, cmdWord_and]
  simp
  decide

theorem denc (a b : VReg) : Statement (.denc a b) := by
  refine of_row ⟨40, 0xa0000000, 0xffc03fff, _⟩ rfl rfl ?_
  rw [show (0xffc03fff : Word32) = cmdWord 63 15 0 0 3 4095 by decide, cmdWord_and]
  simp
  decide

theorem ddec (d a : VReg) : Statement (.ddec d a) := by
  refine of_row ⟨41, 0xa4000000, 0xfc03ffff, _⟩ rfl rfl ?_
  rw [show (0xfc03ffff : Word32) = cmdWord 63 0 0 15 3 4095 by decide, cmdWord_and]
  simp
  decide

theorem lows (d a : VReg) : Statement (.lows d a) := by
  refine of_row ⟨48, 0xc0000000, 0xfc03ffff, _⟩ rfl rfl ?_
  rw [show (0xfc03ffff : Word32) = cmdWord 63 0 0 15 3 4095 by decide, cmdWord_and]
  simp
  decide

theorem schk (a b : VReg) : Statement (.schk a b) := by
  refine of_row ⟨49, 0xc4000000, 0xffc03fff, _⟩ rfl rfl ?_
  rw [show (0xffc03fff : Word32) = cmdWord 63 15 0 0 3 4095 by decide, cmdWord_and]
  simp
  decide

end Sys2Proof.Laws.WordInItsRow
end

