-- ==== Sys2Proof/Tests/Slice0.lean ====
section
/-! SUPPORT. The model's own tests: the well-formedness smoke test, a word of every command written out field by
field, one step of each command against a vector of 95_test_vectors.md (its id stands in the comment), the host
accesses VH1 to VH20, and for every statement of Obligations.lean with hypotheses a state that meets them. -/

namespace Sys2Proof.Tests

set_option Elab.async false

open Sys2Proof.Machine

/-! ## Helpers -/

/-- The step or meaning answers a next state with this property. -/
def after (o : Out) (f : State → Bool) : Bool :=
  match o with
  | .next t => f t
  | .fault _ => false
  | .refused _ => false

/-- Reset, then V0 = a and V1 = b. -/
def vals (a b : Nat) : State := (State.reset.writeV 0 (word256 a)).writeV 1 (word256 b)

/-- Reset, then P0 = A and P1 = B. -/
def pts (A B : Point) : State := (State.reset.writeP 0 A).writeP 1 B

/-- Reset, then DBUF holds these bytes and zeros, and DLEN their number. -/
def der (b : List Byte) : State := State.reset.writeDer b

/-- The access is the next move, and the only one. -/
def facing (a : BusAccess) (s : State) : State := { s with schedule := [.host a] }

/-- While PGEN p0 is held. -/
def busyState : State := State.reset.accept 0x48000000#32

/-- After a failed MINV, so ERR = 1 and ERRCODE = 0x05. -/
def errState : State := State.reset.errorCompletion .notInvertible

/-- A word from its six fields (30_encoding.md R80). -/
def word (opc : BitVec 6) (rd ra rb : BitVec 4) (sel : BitVec 2) (imm : BitVec 12) : Word32 :=
  opc ++ rd ++ ra ++ rb ++ sel ++ imm

/-- -G, by 95_test_vectors.md VP7. -/
def negG : Point := .affine Config.gx (Config.p - Config.gy)

/-- 2G, by 95_test_vectors.md VP12 and VP13. -/
def twoG : Point := .affine
  0xC6047F9441ED7D6D3045406E95C07CD85C778E4B8CEF3CA7ABAC09B95C709EE5
  0x1AE168FEA63DC339A3C58419466CEAEEF7F632653266D0E1236431A950CFE52A

/-- 53G, by 95_test_vectors.md VS12. -/
def fiftyThreeG : Point := .affine
  0xF16F804244E46E2A09232D4AFF3B59976B98FAC14328A2D1A32496B49998F247
  0xCEDABD9B82203F7E13D206FCDF4E33D92A6C53C26E5CCE26D6579962C4E31DF6

/-! ## Well-formedness -/

theorem test_ldi_wellFormed : (Instr.ldi 0 4096).wellFormed = false ∧ (Instr.ldi 0 4095).wellFormed = true := by
  decide

theorem test_ppow2_wellFormed :
    (Instr.ppow2 0 0 4096).wellFormed = false ∧ (Instr.ppow2 0 0 4095).wellFormed = true := by decide

/-! ## A word of every command, field by field from 30_encoding.md R80 and R84 -/

theorem test_decode_system : decode (word 0b000000 0 0 0 0 0) = .ok .nop := by decide

theorem test_decode_modular :
    decode (word 0b000001 0b0001 0b0010 0b0011 0b01 0) = .ok (.madd .n 1 2 3) ∧
    decode (word 0b000010 0b1111 0b0000 0b1000 0b00 0) = .ok (.msub .p 15 0 8) ∧
    decode (word 0b000011 0b0111 0b1110 0b0001 0b01 0) = .ok (.mmul .n 7 14 1) ∧
    decode (word 0b000100 0b0101 0b1010 0b0000 0b00 0) = .ok (.msqr .p 5 10) ∧
    decode (word 0b000101 0b0101 0b0010 0b0000 0b01 0) = .ok (.minv .n 5 2) ∧
    decode (word 0b000110 0b0001 0b1000 0b0000 0b00 0) = .ok (.mneg .p 1 8) ∧
    decode (word 0b000111 0b1100 0b0011 0b0000 0b01 0) = .ok (.mred .n 12 3) := by decide

theorem test_decode_register :
    decode (word 0b001000 0b0001 0b1110 0b0000 0b00 0) = .ok (.mov 1 14) ∧
    decode (word 0b001001 0b0011 0b0000 0b0000 0b00 0b111111111110) = .ok (.ldi 3 4094) ∧
    decode (word 0b001010 0b0100 0b0000 0b0000 0b00 0b000000000011) = .ok (.ldc 4 .gx) ∧
    decode (word 0b001010 0b0100 0b0000 0b0000 0b00 0b000000000111) = .ok (.ldc 4 .a) ∧
    decode (word 0b001011 0b0000 0b0010 0b0100 0b00 0) = .ok (.cmp 2 4) := by decide

theorem test_decode_point_load :
    decode (word 0b010000 0b0010 0b1010 0b1011 0b00 0) = .ok (.pld 2 10 11) ∧
    decode (word 0b010001 0b1000 0b0000 0b0000 0b00 0) = .ok (.pinf 8) ∧
    decode (word 0b010010 0b0001 0b0000 0b0000 0b00 0) = .ok (.pgen 1) ∧
    decode (word 0b010011 0b1100 0b0101 0b0000 0b00 0) = .ok (.px 12 5) ∧
    decode (word 0b010100 0b1100 0b0101 0b0000 0b00 0) = .ok (.py 12 5) := by decide

theorem test_decode_point_arithmetic :
    decode (word 0b010101 0b0101 0b0011 0b0100 0b00 0) = .ok (.padd 5 3 4) ∧
    decode (word 0b010110 0b0001 0b0010 0b0000 0b00 0) = .ok (.pdbl 1 2) ∧
    decode (word 0b010111 0b0101 0b0011 0b0100 0b00 0) = .ok (.ptpl 5 3 4) ∧
    decode (word 0b011000 0b1000 0b0111 0b0000 0b00 0) = .ok (.pneg 8 7) ∧
    decode (word 0b011001 0b0001 0b0010 0b0000 0b00 0) = .ok (.pnorm 1 2) ∧
    decode (word 0b011010 0b0001 0b0000 0b0000 0b00 0b000100000000) = .ok (.ppow2 1 0 256) ∧
    decode (word 0b011011 0b0000 0b0011 0b0100 0b00 0) = .ok (.peq 3 4) := by decide

theorem test_decode_multiplier :
    decode (word 0b100000 0b0010 0b0000 0b0101 0b00 0) = .ok (.pmul .ref 2 0 5) ∧
    decode (word 0b100000 0b0010 0b0000 0b0101 0b01 0) = .ok (.pmul .naf 2 0 5) ∧
    decode (word 0b100000 0b0010 0b0000 0b0101 0b10 0) = .ok (.pmul .ladder 2 0 5) ∧
    decode (word 0b100000 0b0010 0b0000 0b0101 0b11 0) = .ok (.pmul .zsd 2 0 5) := by decide

theorem test_decode_signature :
    decode (word 0b101000 0b0000 0b0011 0b0110 0b00 0) = .ok (.denc 3 6) ∧
    decode (word 0b101001 0b0000 0b0001 0b0000 0b00 0) = .ok (.ddec 0 1) ∧
    decode (word 0b110000 0b0110 0b0101 0b0000 0b00 0) = .ok (.lows 6 5) ∧
    decode (word 0b110001 0b0000 0b0011 0b0110 0b00 0) = .ok (.schk 3 6) := by decide

/-- 95_test_vectors.md VX2, VM50, VM52 and VP44: a set must-be-zero bit. -/
theorem test_decode_illegal_field :
    decode 0x00000001#32 = .error .illegalField ∧ decode 0x04806000#32 = .error .illegalField ∧
    decode 0x2800000F#32 = .error .illegalField ∧ decode 0x6C404000#32 = .error .illegalField := by decide

/-- VX3 to VX6: a reserved OPC, whatever the other bits. -/
theorem test_decode_illegal_opcode :
    decode 0x30000000#32 = .error .illegalOpcode ∧ decode 0xFC000000#32 = .error .illegalOpcode ∧
    decode 0x33FFFFFF#32 = .error .illegalOpcode ∧ decode 0x84000000#32 = .error .illegalOpcode := by decide

/-! ## One command each -/

/-- VX1, run by step. -/
theorem test_nop : after (step (State.reset.withFetchWord 32 0)) (fun t =>
    t.done && !t.busy && decide (t.v = State.reset.v) && decide (t.pending = none)) = true := by decide +kernel

/-- VM1. -/
theorem test_madd_wraps : after (exec (.madd .p 2 0 1) (vals (Config.p - 1) 1)) (fun t =>
    decide (t.valueV 2 = 0) && t.flagZ) = true := by decide +kernel

/-- VM6: the second operand alone is out of range. -/
theorem test_madd_range : after (exec (.madd .p 2 0 1) (vals 0 Config.p)) (fun t =>
    decide (t.errcode = some .operandRange) && t.err && t.done) = true := by decide +kernel

/-- VM12. -/
theorem test_msub_borrows : after (exec (.msub .n 2 0 1) (vals 1 (Config.n - 1))) (fun t =>
    decide (t.valueV 2 = 2) && !t.flagZ) = true := by decide +kernel

/-- VM15. -/
theorem test_mmul_reduces : after (exec (.mmul .p 2 0 1) (vals (2 ^ 128) (2 ^ 128))) (fun t =>
    decide (t.valueV 2 = 0x1000003D1) && !t.flagZ) = true := by decide +kernel

/-- VM17. -/
theorem test_msqr : after (exec (.msqr .p 1 0) (vals Config.gx 0)) (fun t =>
    decide (t.valueV 1 = 0x8550E7D238FCF3086BA9ADCF0FB52A9DE3652194D06CB5BB38D50229B854FC49)) = true := by
  decide +kernel

/-- VM23: the destination is the source. -/
theorem test_minv : after (exec (.minv .n 0 0) (vals 3 0)) (fun t =>
    decide (t.valueV 0 = 0xAAAAAAAAAAAAAAAAAAAAAAAAAAAAAAA9D1C9E899CA306AD27FE1945DE0242B81) && !t.flagZ) = true := by
  decide +kernel

/-- VM24. -/
theorem test_minv_of_zero : after (exec (.minv .p 1 0) (vals 0 0)) (fun t =>
    decide (t.errcode = some .notInvertible)) = true := by decide +kernel

/-- VM26 and VM28. -/
theorem test_mneg : (after (exec (.mneg .p 1 0) (vals 0 5)) (fun t => decide (t.valueV 1 = 0) && t.flagZ) &&
    after (exec (.mneg .n 1 0) (vals 1 0)) (fun t => decide (t.valueV 1 = Config.n - 1))) = true := by decide +kernel

/-- VM31: no range check. -/
theorem test_mred : after (exec (.mred .n 1 0) (vals Config.p 0)) (fun t =>
    decide (t.valueV 1 = 0x14551231950B75FC4402DA1722FC9BAEE)) = true := by decide +kernel

/-- VM34. -/
theorem test_mov : after (exec (.mov 1 0) (vals (2 ^ 256 - 1) 0)) (fun t =>
    decide (t.valueV 1 = 2 ^ 256 - 1)) = true := by decide +kernel

/-- VM35. -/
theorem test_ldi : after (exec (.ldi 3 0xFFF) State.reset) (fun t => decide (t.valueV 3 = 4095)) = true := by
  decide +kernel

/-- VM39. -/
theorem test_ldc : after (exec (.ldc 0 .halfN) State.reset) (fun t =>
    decide (t.valueV 0 = (Config.n - 1) / 2)) = true := by decide +kernel

/-- VM48. -/
theorem test_cmp : after (exec (.cmp 0 1) (vals 0 (2 ^ 256 - 1))) (fun t => !t.flagEq && t.flagLt) = true := by
  decide +kernel

/-- VP7. -/
theorem test_pld : after (exec (.pld 0 0 1) (vals Config.gx (Config.p - Config.gy))) (fun t =>
    decide (t.readP 0 = negG) && !t.flagZ) = true := by decide +kernel

/-- VP5. -/
theorem test_pld_off_curve : after (exec (.pld 0 0 1) (vals 1 1)) (fun t =>
    decide (t.errcode = some .notOnCurve) && decide (t.readP 0 = .infinity)) = true := by decide +kernel

/-- VP8. -/
theorem test_pinf : after (exec (.pinf 0) (pts generator .infinity)) (fun t =>
    decide (t.readP 0 = .infinity) && t.flagZ) = true := by decide +kernel

/-- VP9. -/
theorem test_pgen : after (exec (.pgen 0) State.reset) (fun t =>
    decide (t.readP 0 = .affine Config.gx Config.gy) && !t.flagZ) = true := by decide +kernel

/-- VP12. -/
theorem test_px : after (exec (.px 0 0) (pts twoG .infinity)) (fun t => decide (t.valueV 0 =
    0xC6047F9441ED7D6D3045406E95C07CD85C778E4B8CEF3CA7ABAC09B95C709EE5)) = true := by decide +kernel

/-- VP13. -/
theorem test_py : after (exec (.py 0 0) (pts twoG .infinity)) (fun t => decide (t.valueV 0 =
    0x1AE168FEA63DC339A3C58419466CEAEEF7F632653266D0E1236431A950CFE52A)) = true := by decide +kernel

/-- VP15. -/
theorem test_py_of_infinity : after (exec (.py 0 0) State.reset) (fun t =>
    decide (t.errcode = some .pointAtInfinity)) = true := by decide +kernel

/-- VP23: equal points are doubled, and the destination is both sources. -/
theorem test_padd_doubles : after (exec (.padd 0 0 0) (pts generator .infinity)) (fun t =>
    decide (t.readP 0 = twoG) && !t.flagZ) = true := by decide +kernel

/-- VP19. -/
theorem test_padd_cancels : after (exec (.padd 2 0 1) (pts generator negG)) (fun t =>
    decide (t.readP 2 = .infinity) && t.flagZ) = true := by decide +kernel

/-- VP24. -/
theorem test_pdbl : after (exec (.pdbl 1 0) (pts generator .infinity)) (fun t =>
    decide (t.readP 1 = twoG) && !t.flagZ) = true := by decide +kernel

/-- VP28. -/
theorem test_ptpl : after (exec (.ptpl 2 0 1) (pts generator negG)) (fun t =>
    decide (t.readP 2 = generator)) = true := by decide +kernel

/-- VP32. -/
theorem test_pneg : after (exec (.pneg 1 0) (pts generator .infinity)) (fun t =>
    decide (t.readP 1 = negG) && !t.flagZ) = true := by decide +kernel

/-- VP35. -/
theorem test_pnorm : after (exec (.pnorm 1 0) (pts .infinity generator)) (fun t =>
    decide (t.readP 1 = .infinity) && t.flagZ) = true := by decide +kernel

/-- VP37, and one doubling by 41_point.md R133. -/
theorem test_ppow2 : (after (exec (.ppow2 1 0 0) (pts generator .infinity)) (fun t =>
    decide (t.readP 1 = generator)) &&
    after (exec (.ppow2 1 0 1) (pts generator .infinity)) (fun t => decide (t.readP 1 = twoG))) = true := by
  decide +kernel

/-- VP41. -/
theorem test_peq : after (exec (.peq 0 1) (pts generator negG)) (fun t => !t.flagEq && !t.flagLt) = true := by
  decide +kernel

/-- VS6, VS12, VS18, VS24: [53]G by all four algorithms. -/
theorem test_pmul : ([Algorithm.ref, .naf, .ladder, .zsd].all fun alg =>
    after (exec (.pmul alg 1 0 0) ((pts generator .infinity).writeV 0 53)) (fun t =>
      decide (t.readP 1 = fiftyThreeG) && !t.flagZ)) = true := by decide +kernel

/-- VS1, VS7, VS13, VS19: [0]G is O. -/
theorem test_pmul_zero : ([Algorithm.ref, .naf, .ladder, .zsd].all fun alg =>
    after (exec (.pmul alg 1 0 0) (pts generator generator)) (fun t =>
      decide (t.readP 1 = .infinity) && t.flagZ)) = true := by decide +kernel

/-- VD2: zero, and the 00 pad. -/
theorem test_denc : after (exec (.denc 0 1) (vals 0 0x80)) (fun t => decide (t.dlen = 9) &&
    decide (t.dbuf.toList.take 10 = [0x30, 0x07, 0x02, 0x01, 0x00, 0x02, 0x02, 0x00, 0x80, 0x00])) = true := by
  decide +kernel

/-- VD10 with other values: 0x81 in all three length positions. -/
theorem test_ddec : after
    (exec (.ddec 0 1) (der [0x30, 0x81, 0x08, 0x02, 0x81, 0x01, 0x05, 0x02, 0x81, 0x01, 0x07])) (fun t =>
    decide (t.valueV 0 = 5) && decide (t.valueV 1 = 7)) = true := by decide +kernel

/-- VD25: not minimal. -/
theorem test_ddec_not_minimal : after
    (exec (.ddec 0 1) (der [0x30, 0x07, 0x02, 0x02, 0x00, 0x01, 0x02, 0x01, 0x01])) (fun t =>
    decide (t.errcode = some .derFormat)) = true := by decide +kernel

/-- VL4: HALFN + 1 is the first value that flips. -/
theorem test_lows : after (exec (.lows 1 0) (vals (Config.halfN + 1) 0)) (fun t =>
    decide (t.valueV 1 = Config.halfN) && t.flagFlip) = true := by decide +kernel

/-- 44_lows.md R160. -/
theorem test_lows_range : after (exec (.lows 1 0) (vals Config.n 0)) (fun t =>
    decide (t.errcode = some .operandRange)) = true := by decide +kernel

/-- 44_lows.md R161: s = n is out of range; s = 0 is low but out of range. -/
theorem test_schk : (after (exec (.schk 0 1) (vals 1 Config.n)) (fun t => !t.flagSv && !t.flagLow && !t.err) &&
    after (exec (.schk 0 1) (vals 1 0)) (fun t => !t.flagSv && t.flagLow) &&
    after (exec (.schk 0 1) (vals (Config.n - 1) Config.halfN)) (fun t => t.flagSv && t.flagLow)) = true := by
  decide +kernel

/-! ## Host accesses -/

/-- VH1, VH3. -/
theorem test_read_id_and_reserved : (after (step (facing (memRead 0x000) State.reset)) (fun t =>
    decide (t.response = some ⟨.ok, some 0x45430001#32⟩)) &&
    after (step (facing (memRead 0x014) State.reset)) (fun t => decide (t.response = some ⟨.ok, some 0⟩))) = true := by
  decide +kernel

/-- VH4, VH5: an 8-bit access, and a 32-bit one off a multiple of 4. -/
theorem test_malformed : (after (step (facing ⟨.read, 0x008, .bits8, 0b0001⟩ State.reset)) (fun t =>
    decide (t.response = some ⟨.error, some 0⟩) && !t.err) &&
    after (step (facing (memWrite 0x102 5) State.reset)) (fun t =>
      decide (t.response = some ⟨.error, none⟩) && decide (t.v = State.reset.v))) = true := by decide +kernel

/-- VH6. -/
theorem test_v_window : after (step (facing (memWrite 0x100 0x80000000#32) (vals 5 0))) (fun t =>
    decide (t.valueV 0 = 2 ^ 255 + 5)) = true := by decide +kernel

/-- VH7. -/
theorem test_v_window_end : after (step (facing (memWrite 0x2FC 0xFFFFFFFF#32) State.reset)) (fun t =>
    decide (t.valueV 15 = 2 ^ 32 - 1)) = true := by decide +kernel

/-- VH8. -/
theorem test_dbuf_window : after (step (facing (memWrite 0x400 0x30060201#32) State.reset)) (fun t =>
    decide (t.dbuf.toList.take 5 = [0x30, 0x06, 0x02, 0x01, 0x00])) = true := by decide +kernel

/-- VH9. -/
theorem test_dlen : after (step (facing (memWrite 0x010 0xFFFFFFFF#32) State.reset)) (fun t =>
    decide (t.dlen = 127)) = true := by decide +kernel

/-- VH10, VH11: locked while BUSY = 1. -/
theorem test_locked : (after (step (facing (memRead 0x100) { busyState with v := (vals 5 0).v })) (fun t =>
    decide (t.response = some ⟨.ok, some 0⟩) && t.ovr) &&
    after (step (facing (memWrite 0x010 5) busyState)) (fun t => decide (t.dlen = 0) && t.ovr)) = true := by
  decide +kernel

/-- VH12. -/
theorem test_cmd_while_busy : after (step (facing (memWrite 0x00C 0) busyState)) (fun t =>
    decide (t.cmdLast = 0x48000000#32) && decide (t.pending = some 0x48000000#32) && t.ovr) = true := by
  decide +kernel

/-- VH14, VH15: IRQ follows IE and DONE. -/
theorem test_irq : (after (step (facing (memWrite 0x004 1) State.reset.complete)) (fun t => t.irq) &&
    after (step (facing (memWrite 0x008 2) { State.reset.complete with ie := true })) (fun t =>
      !t.irq && !t.done)) = true := by decide +kernel

/-- Program 4 of 95_test_vectors.md, steps 2, 3 and 5: the word of the failed MINV, the refused CMD write, the
clear. -/
theorem test_error_and_return : decide (readRegion .status errState = 0x00000506#32) &&
    after (step (facing (memWrite 0x00C 0x24400005#32) errState)) (fun t =>
      decide (readRegion .status t = 0x0000050E#32)) &&
    after (step (facing (memWrite 0x008 0x0000000E#32) errState)) (fun t =>
      decide (readRegion .status t = 0)) = true := by decide +kernel

/-- VH19: a soft reset while PGEN is held; the command is dropped. -/
theorem test_soft_reset : after (step (facing (memWrite 0x004 3) { busyState with ie := true })) (fun t =>
    decide (t = { State.reset with response := some ⟨.ok, none⟩ })) = true := by decide +kernel

/-- 70_reset_and_hazards.md R190: rst_n falls while a command is held. -/
theorem test_reset_drops_the_command : after (step { busyState with schedule := [.rstFalls] }) (fun t =>
    decide (t = { State.reset with rstN := false })) = true := by decide +kernel

/-! ## The statements with hypotheses: a state and operands that meet them -/

theorem witness_DecodeOfEncode :
    (Instr.ldi 15 4095).wellFormed = true ∧ (Instr.ppow2 15 0 0).wellFormed = true := by decide

theorem witness_EncodeOfDecode : decode 0x0448D000#32 = .ok (.madd .n 1 2 3) := by decide

theorem witness_WordOfItsRow : ∃ r ∈ opcodeMap, 0xC40D8000#32 &&& r.mask = r.pattern := by decide

/-- The ends of every reserved range and their legal neighbours, and a word that breaks its row's mask. -/
theorem witness_ReservedAndIllegalWords :
    ([0x0C, 0x0F, 0x1C, 0x1F, 0x21, 0x27, 0x2A, 0x2F, 0x32, 0x3F].all fun o =>
      decide (decode (word o 0 0 0 0 0) = .error .illegalOpcode)) = true ∧
    ([0x0B, 0x10, 0x1B, 0x20, 0x28, 0x29, 0x30, 0x31].all fun o =>
      decide (decode (word o 0 0 0 0 0) ≠ .error .illegalOpcode)) = true ∧
    ∃ r ∈ opcodeMap, opcField 0x00000001#32 = r.opc ∧ 0x00000001#32 &&& r.mask ≠ r.pattern := by decide +kernel

/-- ENGINE has the turn by the schedule, and because HOST is silent. -/
theorem witness_StepRunsTheHeldCommand :
    (NextEngine { busyState with schedule := [.engine] } [] ∧ NextEngine busyState []) ∧
    busyState.pending = some 0x48000000#32 ∧ decode 0x48000000#32 = .ok (.pgen 0) :=
  ⟨⟨⟨rfl, .inr rfl⟩, ⟨rfl, .inl ⟨rfl, rfl⟩⟩⟩, rfl, by decide⟩

theorem witness_StepFailsAnIllegalWord :
    NextEngine (State.reset.accept 0x30000000#32) [] ∧
    (State.reset.accept 0x30000000#32).pending = some 0x30000000#32 ∧
    decode 0x30000000#32 = .error .illegalOpcode :=
  ⟨⟨rfl, .inl ⟨rfl, rfl⟩⟩, rfl, by decide⟩

/-- With a legal word and with an illegal one. -/
theorem witness_EngineFinishesEveryCommand :
    (NextEngine busyState [] ∧ busyState.pending = some 0x48000000#32) ∧
    (NextEngine (State.reset.accept 1#32) [] ∧ (State.reset.accept 1#32).pending = some 1#32) :=
  ⟨⟨⟨rfl, .inl ⟨rfl, rfl⟩⟩, rfl⟩, ⟨⟨rfl, .inl ⟨rfl, rfl⟩⟩, rfl⟩⟩

theorem witness_ErrorsArePrecise :
    ∃ t, exec (.px 0 0) State.reset = .next t ∧ State.reset.err = false ∧ t.err = true :=
  ⟨_, rfl, rfl, rfl⟩

/-- A command that succeeds and one that fails. -/
theorem witness_CommandsKeepTheirFrame :
    (∃ t, exec (.pgen 3) State.reset = .next t) ∧ ∃ t, exec (.ddec 4 4) State.reset = .next t :=
  ⟨⟨_, rfl⟩, ⟨_, rfl⟩⟩

/-- The two-operand commands: the largest operands in range, and each operand the first out of range. -/
theorem witness_MaddAdds_MsubSubtracts_MmulMultiplies :
    ((vals (Config.p - 1) (Config.p - 1)).valueV 0 < modulusValue .p ∧
      (vals (Config.p - 1) (Config.p - 1)).valueV 1 < modulusValue .p) ∧
    ((vals (Config.n - 1) 0).valueV 0 < modulusValue .n ∧ (vals (Config.n - 1) 0).valueV 1 < modulusValue .n) ∧
    modulusValue .p ≤ (vals Config.p 0).valueV 0 ∧ modulusValue .n ≤ (vals 0 Config.n).valueV 1 := by
  decide +kernel

/-- The one-operand commands: 0, the largest operand in range, the first out of range. -/
theorem witness_MsqrSquares_MnegNegates :
    (vals 0 0).valueV 0 < modulusValue .p ∧ (vals (Config.n - 1) 0).valueV 0 < modulusValue .n ∧
    modulusValue .p ≤ (vals Config.p 0).valueV 0 ∧ modulusValue .n ≤ (vals Config.n 0).valueV 0 := by decide +kernel

theorem witness_MinvInverts :
    (0 < (vals 1 0).valueV 0 ∧ (vals 1 0).valueV 0 < modulusValue .p) ∧
    (0 < (vals (Config.n - 1) 0).valueV 0 ∧ (vals (Config.n - 1) 0).valueV 0 < modulusValue .n) ∧
    modulusValue .p ≤ (vals Config.p 0).valueV 0 ∧ (vals 0 0).valueV 0 = 0 := by decide +kernel

/-- LDI's largest immediate; the first and the last constant of LDC. -/
theorem witness_RegisterCommandsLoad :
    4095 < 4096 ∧ (CurveConst.p, 0, Config.p) ∈ [(CurveConst.p, 0, Config.p), (.a, 7, 0)] ∧
    (CurveConst.a, 7, 0) ∈ [(CurveConst.p, 0, Config.p), (.a, 7, 0)] := by decide

/-- G; x = p; y = p; (1, 1), which is not on the curve. -/
theorem witness_PldLoadsCheckedPoints :
    ((vals Config.gx Config.gy).valueV 0 < Config.p ∧ (vals Config.gx Config.gy).valueV 1 < Config.p ∧
      (vals Config.gx Config.gy).valueV 1 ^ 2 % Config.p =
        ((vals Config.gx Config.gy).valueV 0 ^ 3 + 7) % Config.p) ∧
    Config.p ≤ (vals Config.p 1).valueV 0 ∧ Config.p ≤ (vals 1 Config.p).valueV 1 ∧
    ((vals 1 1).valueV 0 < Config.p ∧ (vals 1 1).valueV 1 < Config.p ∧
      (vals 1 1).valueV 1 ^ 2 % Config.p ≠ ((vals 1 1).valueV 0 ^ 3 + 7) % Config.p) := by decide +kernel

theorem witness_PxPyStoreCoordinates :
    ((pts generator .infinity).readP 0 = .affine Config.gx Config.gy ∧ Config.gx < Config.p ∧
      Config.gy < Config.p) ∧ (pts generator .infinity).readP 1 = .infinity := by decide +kernel

/-- Two points on the curve: equal, opposite, distinct, and O on either side. -/
theorem witness_PaddAdds :
    ([(generator, generator), (generator, negG), (generator, twoG), (generator, Point.infinity),
      (Point.infinity, generator)].all fun AB =>
        onCurve ((pts AB.1 AB.2).readP 0) && onCurve ((pts AB.1 AB.2).readP 1)) = true := by decide +kernel

/-- With a register other than pb for the intermediate double. -/
theorem witness_PtplDoublesThenAdds :
    onCurve ((pts generator negG).readP 0) = true ∧ onCurve ((pts generator negG).readP 1) = true ∧
    (2 : PReg) ≠ 1 := by decide +kernel

/-- G and O. -/
theorem witness_PdblDoubles_PmulGivesTheKFoldSum :
    onCurve ((pts generator .infinity).readP 0) = true ∧ onCurve ((pts generator .infinity).readP 1) = true := by
  decide +kernel

theorem witness_PnegNegates :
    ((pts generator .infinity).readP 0 = .affine Config.gx Config.gy ∧ Config.gy < Config.p) ∧
    (pts generator .infinity).readP 1 = .infinity := by decide +kernel

theorem witness_Ppow2Doubles : 4095 < 4096 ∧ 0 < 4096 ∧ onCurve ((pts generator .infinity).readP 0) = true := by
  decide +kernel

theorem witness_FourMultipliersAgree :
    2 ^ 256 - 1 < 2 ^ 256 ∧ onCurve generator = true ∧ onCurve .infinity = true := by decide +kernel

/-- The form of 3: two digits would be adjacent, three are not. -/
theorem witness_NafIsTheNonAdjacentForm :
    digitsValue [.minus, .zero, .plus] = 3 ∧ nonAdjacent [.minus, .zero, .plus] ∧
    [Digit.minus, .zero, .plus].getLast? ≠ some .zero :=
  ⟨by decide, by simp [nonAdjacent], by decide⟩

/-- NOP's word, and another word of its OPC. -/
theorem witness_NopOnlyCompletes : opcField 0x00000001#32 = 0 ∧ 0x00000001#32 ≠ 0 := by decide

theorem witness_DerIntegerIsMinimal : 0 < 2 ^ 256 ∧ 2 ^ 256 - 1 < 2 ^ 256 := by decide

/-- Every answer of the decoder: a pair, DER_FORMAT, and DER_OVERFLOW. -/
theorem witness_DecoderAcceptsTheGrammar :
    derDecode [0x30, 0x06, 0x02, 0x01, 0x01, 0x02, 0x01, 0x01] = .ok (1, 1) ∧
    derDecode [] = .error .derFormat ∧
    derDecode (0x30 :: 0x26 :: 0x02 :: 0x21 :: 0x01 :: (List.replicate 32 0 ++ [0x02, 0x01, 0x01])) =
      .error .derOverflow := by decide +kernel

/-- DLEN = 80 and DLEN = 81 on either side of the bound; an error and a pair from the decoder. -/
theorem witness_DdecDecodes :
    (0 : VReg) ≠ 1 ∧ 80 < ({ State.reset with dlen := 81 } : State).dlen.toNat ∧
    ({ State.reset with dlen := 80 } : State).dlen.toNat ≤ 80 ∧
    derDecode (State.reset.dbuf.toList.take 80) = .error .derFormat ∧
    derDecode ((der [0x30, 0x06, 0x02, 0x01, 0x01, 0x02, 0x01, 0x01]).dbuf.toList.take 8) = .ok (1, 1) := by
  decide +kernel

theorem witness_LargestSignature : derDecode [0x30, 0x06, 0x02, 0x01, 0x01, 0x02, 0x01, 0x01] = .ok (1, 1) := by
  decide +kernel

theorem witness_DerRoundTrip : (0 : VReg) ≠ 15 := by decide

/-- HALFN, HALFN + 1, n - 1 and n, where the clauses meet. -/
theorem witness_LowsCanonicalizes :
    (vals Config.halfN 0).valueV 0 ≤ Config.halfN ∧
    (Config.halfN < (vals (Config.halfN + 1) 0).valueV 0 ∧ (vals (Config.halfN + 1) 0).valueV 0 < Config.n) ∧
    (Config.halfN < (vals (Config.n - 1) 0).valueV 0 ∧ (vals (Config.n - 1) 0).valueV 0 < Config.n) ∧
    Config.n ≤ (vals Config.n 0).valueV 0 := by decide +kernel

theorem witness_CanonicalizationIsIdempotent :
    (vals (Config.n - 1) 0).valueV 0 < Config.n ∧ 1 ≤ (vals (Config.n - 1) 0).valueV 0 := by decide +kernel

/-- Any state can face an access: here a busy one and one with ERR = 1. -/
theorem witness_SoftResetResets :
    NextAccess (facing (memWrite 0x004 2) busyState) (memWrite 0x004 2) [] ∧
    NextAccess (facing (memWrite 0x004 3) errState) (memWrite 0x004 3) [] ∧
    (2#32).getLsbD 1 = true ∧ (3#32).getLsbD 1 = true ∧
    ({ busyState with schedule := [.rstFalls, .rstRises] } : State).schedule = [.rstFalls, .rstRises] ∧
    NextAccess (facing (memRead 0x004) busyState) (memRead 0x004) [] :=
  ⟨⟨rfl, rfl⟩, ⟨rfl, rfl⟩, rfl, rfl, rfl, ⟨rfl, rfl⟩⟩

theorem witness_StatusWriteClears :
    NextAccess (facing (memWrite 0x008 0xE) errState) (memWrite 0x008 0xE) [] := ⟨rfl, rfl⟩

theorem witness_CtrlWriteEnablesInterrupt :
    NextAccess (facing (memWrite 0x004 1) busyState) (memWrite 0x004 1) [] ∧ (1#32).getLsbD 1 = false :=
  ⟨⟨rfl, rfl⟩, rfl⟩

/-- Idle, busy, and with ERR = 1. -/
theorem witness_CmdWriteAcceptedOrRefused :
    (NextAccess (facing (memWrite 0x00C 0) State.reset) (memWrite 0x00C 0) [] ∧ State.reset.busy = false ∧
      State.reset.err = false) ∧
    (NextAccess (facing (memWrite 0x00C 0) busyState) (memWrite 0x00C 0) [] ∧ busyState.busy = true) ∧
    (NextAccess (facing (memWrite 0x00C 0) errState) (memWrite 0x00C 0) [] ∧ errState.err = true) ∧
    NextAccess (facing (memRead 0x00C) State.reset) (memRead 0x00C) [] :=
  ⟨⟨⟨rfl, rfl⟩, rfl, rfl⟩, ⟨⟨rfl, rfl⟩, rfl⟩, ⟨⟨rfl, rfl⟩, rfl⟩, ⟨rfl, rfl⟩⟩

/-- The ends of the two windows, DLEN, and a register that is not locked. -/
theorem witness_BusyLocksTheData :
    busyState.busy = true ∧
    (∀ off ∈ [0x100, 0x2FC, 0x400, 0x44C, 0x010], isDataOffset off ∧
      NextAccess (facing (memRead off) busyState) (memRead off) [] ∧
      NextAccess (facing (memWrite off 5) busyState) (memWrite off 5) []) ∧
    (0x008 ∈ [0x000, 0x004, 0x008, 0x00C] ∧ NextAccess (facing (memRead 0x008) busyState) (memRead 0x008) []) := by
  refine ⟨rfl, fun off h => ?_, by decide, ⟨rfl, rfl⟩⟩
  refine ⟨?_, ⟨rfl, rfl⟩, ⟨rfl, rfl⟩⟩
  simp only [List.mem_cons, List.not_mem_nil, or_false] at h
  rcases h with rfl | rfl | rfl | rfl | rfl <;> simp [isDataOffset]

/-- The first word of V0 and the last of V15. -/
theorem witness_VWindowHoldsTheWords :
    State.reset.busy = false ∧
    NextAccess (facing (memRead (0x100 + 32 * 0 + 4 * 0)) State.reset) (memRead 0x100) [] ∧
    NextAccess (facing (memWrite (0x100 + 32 * 15 + 4 * 7) 5) State.reset) (memWrite 0x2FC 5) [] :=
  ⟨rfl, ⟨rfl, rfl⟩, ⟨rfl, rfl⟩⟩

/-- The first and the last word of DBUF. -/
theorem witness_DbufWindowHoldsTheBytes :
    State.reset.busy = false ∧
    NextAccess (facing (memRead (0x400 + 4 * 0)) State.reset) (memRead 0x400) [] ∧
    NextAccess (facing (memWrite (0x400 + 4 * 19) 5) State.reset) (memWrite 0x44C 5) [] :=
  ⟨rfl, ⟨rfl, rfl⟩, ⟨rfl, rfl⟩⟩

/-- A byte read, a halfword write, an offset that is no multiple of 4, a word write with three byte enables. -/
theorem witness_MalformedAccessHasNoEffect :
    ([⟨.read, 0x008, .bits8, 0b0001⟩, ⟨.write 5, 0x00C, .bits16, 0b0011⟩, memRead 0x102,
      ⟨.write 5, 0x00C, .bits32, 0b0111⟩] : List BusAccess).all (fun a =>
        decide (a.width ≠ .bits32 ∨ a.offset.toNat % 4 ≠ 0 ∨ a.byteEnables ≠ 0b1111#4)) = true ∧
    NextAccess (facing (memRead 0x102) State.reset) (memRead 0x102) [] :=
  ⟨by decide, ⟨rfl, rfl⟩⟩

/-- The ends of the three reserved ranges. -/
theorem witness_IdAndReservedOffsets :
    NextAccess (facing (memRead 0x000) busyState) (memRead 0x000) [] ∧
    (∀ off ∈ [0x014, 0x0FC, 0x300, 0x3FC, 0x450, 0xFFC], isReservedOffset off ∧
      NextAccess (facing (memRead off) State.reset) (memRead off) [] ∧
      NextAccess (facing (memWrite off 5) State.reset) (memWrite off 5) []) := by
  refine ⟨⟨rfl, rfl⟩, fun off h => ⟨?_, ⟨rfl, rfl⟩, ⟨rfl, rfl⟩⟩⟩
  simp only [List.mem_cons, List.not_mem_nil, or_false] at h
  rcases h with rfl | rfl | rfl | rfl | rfl | rfl <;> simp [isReservedOffset]

theorem witness_DlenRegister :
    State.reset.busy = false ∧ NextAccess (facing (memRead 0x010) State.reset) (memRead 0x010) [] ∧
    NextAccess (facing (memWrite 0x010 0xFF) State.reset) (memWrite 0x010 0xFF) [] :=
  ⟨rfl, ⟨rfl, rfl⟩, ⟨rfl, rfl⟩⟩

theorem witness_StatusReadLayout : NextAccess (facing (memRead 0x008) errState) (memRead 0x008) [] := ⟨rfl, rfl⟩

theorem witness_BusyHidesTheCommand : busyState.busy = true := rfl

/-- rst_n falls, stays 0 with HOST silent and with an engine turn, rises; an access while it is 0. -/
theorem witness_HardwareReset :
    ({ busyState with schedule := [.rstFalls] } : State).schedule = [.rstFalls] ∧
    (({ State.reset with rstN := false } : State).rstN = false ∧
      ({ State.reset with rstN := false } : State).schedule = []) ∧
    ({ State.reset with rstN := false, schedule := [.engine] } : State).schedule = [.engine] ∧
    ({ State.reset with rstN := false, schedule := [.rstRises] } : State).schedule = [.rstRises] ∧
    ({ State.reset with rstN := false, schedule := [.host (memRead 0)] } : State).schedule = [.host (memRead 0)] :=
  ⟨rfl, ⟨rfl, rfl⟩, rfl, rfl, rfl⟩

/-- The invariant holds after reset, and while a command is held. -/
theorem witness_InvariantKept : State.reset.Inv ∧ busyState.Inv ∧ ∃ t, step busyState = .next t := by
  refine ⟨⟨rfl, nofun, nofun, rfl, nofun, ?_, nofun⟩, ⟨rfl, fun _ => rfl, fun _ => rfl, rfl, ?_, ?_, nofun⟩, ?_⟩
  · decide +kernel
  · rintro w ⟨⟩
    rfl
  · decide +kernel
  · have h : after (step busyState) (fun _ => true) = true := by decide +kernel
    revert h
    cases step busyState with
    | next t => exact fun _ => ⟨t, rfl⟩
    | fault r => nofun
    | refused r => nofun

/-- HOST silent; and a schedule that resets, waits and then accesses. -/
theorem witness_MachineNeverStops :
    hostDuty State.reset.rstN State.reset.schedule = true ∧
    hostDuty true [.host (memRead 0), .rstFalls, .engine, .rstRises, .host (memWrite 0xC 0)] = true := by decide

end Sys2Proof.Tests
end

section
/-! PROOFS. The host interface registers of 10_state.md: what one step does when HOST reads or writes an unlocked
offset of the window, and from it CMD, DLEN, ID and the reserved offsets. -/

namespace Sys2Proof.Machine

/-! ## The map -/

theorem isReservedOffset.aligned {off : Nat} (h : isReservedOffset off) : off % 4 = 0 := h.1

theorem isReservedOffset.inWindow {off : Nat} (h : isReservedOffset off) : off < 4096 := by
  obtain ⟨-, hrange⟩ := h
  omega

theorem regionAt_reserved {off : Nat} (h : isReservedOffset off) : regionAt off = .reserved := by
  obtain ⟨-, hrange⟩ := h
  rw [regionAt, if_neg (by omega), if_neg (by omega), if_neg (by omega), if_neg (by omega), if_neg (by omega),
    dif_neg (by omega), dif_neg (by omega)]

/-! ## The lock -/

theorem isLocked_of_idle {s : State} (h : s.busy = false) (r : Region) : isLocked r s = false := by
  rw [isLocked, h, Bool.and_false]

theorem isLocked_of_notData {r : Region} (h : isData r = false) (s : State) : isLocked r s = false := by
  rw [isLocked, h, Bool.false_and]

theorem isLocked_reserved {off : Nat} (h : isReservedOffset off) (s : State) : isLocked (regionAt off) s = false := by
  rw [regionAt_reserved h]
  exact isLocked_of_notData rfl s

theorem readWord_unlocked {r : Region} {s : State} (h : isLocked r s = false) :
    readWord r s = { s with response := okData (readRegion r s) } := by
  rw [readWord, h]
  rfl

theorem writeWord_unlocked {r : Region} {s : State} (h : isLocked r s = false) (w : Word32) :
    writeWord r w s = { writeRegion r w s with response := okWritten } := by
  rw [writeWord, h]
  rfl

/-- What a read returns does not depend on the moves still to come. -/
theorem readRegion_schedule (r : Region) (s : State) (rest : List Turn) :
    readRegion r { s with schedule := rest } = readRegion r s := by
  cases r <;> rfl

/-! ## One step with HOST to move -/

section
variable {s : State} {rest : List Turn} {off : Nat} {w : Word32}

theorem step_nextAccess {a : BusAccess} (h : NextAccess s a rest) :
    step s = .next ({ s with schedule := rest }.serve a) := by
  rw [step_turn h.next]
  exact play_host (s := { s with schedule := rest }) h.up a

/-- A read of an unlocked word returns what stands there and has no side effect. -/
theorem step_read_unlocked (h : NextAccess s (memRead off) rest) (hlt : off < 4096) (h4 : off % 4 = 0)
    (hopen : isLocked (regionAt off) s = false) :
    step s = .next { s with schedule := rest, response := okData (readRegion (regionAt off) s) } := by
  rw [step_nextAccess h, serve_memRead _ hlt h4, readWord_unlocked (s := { s with schedule := rest }) hopen,
    readRegion_schedule]

/-- A write to an unlocked word does what its region does and answers OK. -/
theorem step_write_unlocked (h : NextAccess s (memWrite off w) rest) (hlt : off < 4096) (h4 : off % 4 = 0)
    (hopen : isLocked (regionAt off) s = false) :
    step s = .next { writeRegion (regionAt off) w { s with schedule := rest } with response := okWritten } := by
  rw [step_nextAccess h, serve_memWrite _ w hlt h4, writeWord_unlocked (s := { s with schedule := rest }) hopen]

end

/-! ## CMD -/

theorem writeCmd_refused {s : State} (h : s.busy = true ∨ s.err = true) (w : Word32) :
    writeCmd w s = { s with ovr := true } :=
  if_pos (by simpa using h)

theorem writeCmd_accepted {s : State} (hb : s.busy = false) (he : s.err = false) (w : Word32) :
    writeCmd w s = s.accept w :=
  if_neg (by simp [hb, he])

theorem step_write_cmd {s : State} {w : Word32} {rest : List Turn} (h : NextAccess s (memWrite 0x00C w) rest) :
    step s = .next { writeCmd w { s with schedule := rest } with response := okWritten } :=
  step_write_unlocked h (by decide) (by decide) (isLocked_of_notData rfl s)

/-- Settles O47: CMD is never locked, so a write goes to writeCmd, whose two branches are the two clauses. -/
theorem cmdWriteAcceptedOrRefused : Obligations.CmdWriteAcceptedOrRefused := by
  intro s w rest
  refine ⟨fun h => ⟨fun hfull => ?_, fun hb he => ?_⟩, fun h => ?_⟩
  · rw [step_write_cmd h, writeCmd_refused (s := { s with schedule := rest }) hfull]
  · rw [step_write_cmd h, writeCmd_accepted (s := { s with schedule := rest }) hb he]
    rfl
  · exact step_read_unlocked h (by decide) (by decide) (isLocked_of_notData rfl s)

/-! ## ID and the reserved offsets -/

/-- Settles O52: neither region is locked, a read returns its constant, and writeRegion leaves the state alone. -/
theorem idAndReservedOffsets : Obligations.IdAndReservedOffsets := by
  intro s off w rest
  refine ⟨fun h => ?_, fun hr h => ?_, ?_⟩
  · exact step_read_unlocked h (by decide) (by decide) (isLocked_of_notData rfl s)
  · rw [step_read_unlocked h hr.inWindow hr.aligned (isLocked_reserved hr s), regionAt_reserved hr]
    rfl
  · rintro (rfl | hr) h
    · exact step_write_unlocked h (by decide) (by decide) (isLocked_of_notData rfl s)
    · rw [step_write_unlocked h hr.inWindow hr.aligned (isLocked_reserved hr s), regionAt_reserved hr]
      rfl

/-! ## DLEN -/

theorem toNat_readRegion_dlen (s : State) : (readRegion .dlen s).toNat = s.dlen.toNat :=
  BitVec.toNat_setWidth_of_le (by decide)

/-- Settles O53: while BUSY = 0 DLEN is not locked; a read extends its 7 bits and a write keeps the low 7. -/
theorem dlenRegister : Obligations.DlenRegister := by
  intro s w rest hb
  refine ⟨fun h => ⟨_, ?_, toNat_readRegion_dlen s⟩, fun h => ⟨w.extractLsb' 0 7, ?_, ?_⟩⟩
  · exact step_read_unlocked h (by decide) (by decide) (isLocked_of_idle hb _)
  · exact step_write_unlocked h (by decide) (by decide) (isLocked_of_idle hb _)
  · rw [BitVec.extractLsb'_toNat, Nat.shiftRight_zero]

end Sys2Proof.Machine
end

section
/-! PROOFS. The register window of 20_memory.md: the lock while BUSY = 1, the words of the V window, the bytes of the
DBUF window, and the accesses the port refuses. -/

namespace Sys2Proof.Machine

/-! ## The lock (20_memory.md R57) -/

theorem isDataOffset.aligned {off : Nat} (h : isDataOffset off) : off % 4 = 0 := h.1

theorem isDataOffset.inWindow {off : Nat} (h : isDataOffset off) : off < 4096 := by
  obtain ⟨-, hrange⟩ := h
  omega

theorem isData_regionAt {off : Nat} (h : isDataOffset off) : isData (regionAt off) = true := by
  obtain ⟨-, hv | hd | rfl⟩ := h
  · rw [regionAt, if_neg (by omega), if_neg (by omega), if_neg (by omega), if_neg (by omega), if_neg (by omega),
      dif_pos hv]
    rfl
  · rw [regionAt, if_neg (by omega), if_neg (by omega), if_neg (by omega), if_neg (by omega), if_neg (by omega),
      dif_neg (by omega), dif_pos hd]
    rfl
  · rfl

theorem isLocked_of_busy {off : Nat} (h : isDataOffset off) {s : State} (hb : s.busy = true) :
    isLocked (regionAt off) s = true := by
  rw [isLocked, isData_regionAt h, hb]
  rfl

theorem readWord_locked {r : Region} {s : State} (h : isLocked r s = true) :
    readWord r s = { s with ovr := true, response := okData 0 } :=
  if_pos h

theorem writeWord_locked {r : Region} {s : State} (h : isLocked r s = true) (w : Word32) :
    writeWord r w s = { s with ovr := true, response := okWritten } := by
  rw [writeWord, if_pos h]
  rfl

theorem statusWord_bit0 (s : State) : (statusWord s).getLsbD 0 = s.busy := by
  rw [statusWord, BitVec.getLsbD_append, if_pos Nat.zero_lt_one]
  exact BitVec.getLsbD_ofBool _ 0

theorem ctrlWord_bit0 (s : State) : (ctrlWord s).getLsbD 0 = s.ie := by
  rw [ctrlWord, BitVec.getLsbD_append, if_pos Nat.zero_lt_one]
  exact BitVec.getLsbD_ofBool _ 0

/-- Settles O48: a data offset is locked, so its access only sets OVR; ID, CTRL, STATUS and CMD are not data, so a
read returns what stands there. -/
theorem busyLocksTheData : Obligations.BusyLocksTheData := by
  intro s off w rest hb
  refine ⟨fun hd => ⟨fun h => ?_, fun h => ?_⟩, fun hoff h => ?_⟩
  · rw [step_nextAccess h, serve_memRead _ hd.inWindow hd.aligned,
      readWord_locked (isLocked_of_busy hd (s := { s with schedule := rest }) hb)]
  · rw [step_nextAccess h, serve_memWrite _ w hd.inWindow hd.aligned,
      writeWord_locked (isLocked_of_busy hd (s := { s with schedule := rest }) hb)]
  · have hopen : off < 4096 ∧ off % 4 = 0 ∧ isData (regionAt off) = false := by
      clear h
      revert off
      decide
    obtain ⟨hlt, h4, hnot⟩ := hopen
    refine ⟨_, step_read_unlocked h hlt h4 (isLocked_of_notData hnot s), ?_, ?_, ?_, ?_⟩
    · rintro rfl
      rfl
    · rintro rfl
      rfl
    · rintro rfl
      exact (statusWord_bit0 s).trans hb
    · rintro rfl
      exact ctrlWord_bit0 s

/-! ## The V window (20_memory.md R54) -/

theorem getLsbD_wordOfV (x : Word256) (j : Fin 8) {k : Nat} (hk : k < 32) :
    (wordOfV x j).getLsbD k = x.getLsbD (224 - 32 * j.val + k) := by
  rw [wordOfV, BitVec.getLsbD_extractLsb', decide_eq_true hk, Bool.true_and]

/-- The mask of the 32 bits from bit b on. -/
theorem getLsbD_wordMask {b k : Nat} (hk : k < 256) :
    (0xFFFFFFFF#256 <<< b).getLsbD k = decide (b ≤ k ∧ k < b + 32) := by
  rw [show 0xFFFFFFFF#256 = (BitVec.allOnes 32).setWidth 256 by decide, BitVec.getLsbD_shiftLeft,
    BitVec.getLsbD_setWidth, BitVec.getLsbD_allOnes, Bool.eq_iff_iff]
  simp only [Bool.and_eq_true, Bool.not_eq_true', decide_eq_true_eq, decide_eq_false_iff_not]
  omega

/-- A word moved up to bit b has no bit outside the 32 from b on. -/
theorem getLsbD_placedWord (w : Word32) {b k : Nat} (hk : k < 256) :
    (w.zeroExtend 256 <<< b).getLsbD k = (decide (b ≤ k ∧ k < b + 32) && w.getLsbD (k - b)) := by
  rw [BitVec.getLsbD_shiftLeft, BitVec.zeroExtend, BitVec.getLsbD_setWidth]
  cases hbit : w.getLsbD (k - b) with
  | false => simp only [Bool.and_false]
  | true =>
    have hlt : k - b < 32 := BitVec.lt_of_getLsbD hbit
    rw [Bool.and_true, Bool.and_true, Bool.eq_iff_iff]
    simp only [Bool.and_eq_true, Bool.not_eq_true', decide_eq_true_eq, decide_eq_false_iff_not]
    omega

/-- Inside word j stands w, outside it x. -/
theorem getLsbD_setWordOfV (x : Word256) (j : Fin 8) (w : Word32) {k : Nat} (hk : k < 256) :
    (setWordOfV x j w).getLsbD k =
      if 224 - 32 * j.val ≤ k ∧ k < 256 - 32 * j.val then w.getLsbD (k - (224 - 32 * j.val)) else x.getLsbD k := by
  have htop : 256 - 32 * j.val = 224 - 32 * j.val + 32 := by omega
  rw [setWordOfV, BitVec.getLsbD_or, BitVec.getLsbD_and, BitVec.getLsbD_not, getLsbD_wordMask hk,
    getLsbD_placedWord w hk, htop]
  split
  next hin => rw [decide_eq_true hin, decide_eq_true hk, Bool.not_true, Bool.and_false, Bool.and_false,
      Bool.false_or, Bool.true_and]
  next hout => rw [decide_eq_false hout, decide_eq_true hk, Bool.not_false, Bool.and_true, Bool.and_true,
      Bool.false_and, Bool.or_false]

theorem v_inWindow (i : VReg) (j : Fin 8) :
    0x100 + 32 * i.val + 4 * j.val < 4096 ∧ (0x100 + 32 * i.val + 4 * j.val) % 4 = 0 := by
  omega

/-- Settles O49: the offset stands for word j of V[i] and is not locked; getLsbD_wordOfV and getLsbD_setWordOfV
give the bits. -/
theorem vWindowHoldsTheWords : Obligations.VWindowHoldsTheWords := by
  intro s i j w rest hb
  obtain ⟨hlt, h4⟩ := v_inWindow i j
  refine ⟨fun h => ⟨wordOfV (s.readV i) j, ?_, fun k => getLsbD_wordOfV _ j⟩,
    fun h => ⟨setWordOfV (s.readV i) j w, ?_, fun k => getLsbD_setWordOfV _ j w⟩⟩
  · rw [step_read_unlocked h hlt h4 (isLocked_of_idle hb _), regionAt_v]
    rfl
  · rw [step_write_unlocked h hlt h4 (isLocked_of_idle hb _), regionAt_v]
    rfl

/-! ## The DBUF window (20_memory.md R55) -/

theorem toNat_append_byte {n : Nat} (x : BitVec n) (b : Byte) : (x ++ b).toNat = x.toNat * 2 ^ 8 + b.toNat := by
  rw [BitVec.toNat_append, ← Nat.shiftLeft_add_eq_or_of_lt b.isLt, Nat.shiftLeft_eq]

theorem toNat_wordOfDbuf (d : Vector Byte 80) (j : Fin 20) :
    (wordOfDbuf d j).toNat = d[4 * j.val].toNat * 2 ^ 24 + d[4 * j.val + 1].toNat * 2 ^ 16 +
      d[4 * j.val + 2].toNat * 2 ^ 8 + d[4 * j.val + 3].toNat := by
  rw [wordOfDbuf, toNat_append_byte, toNat_append_byte, toNat_append_byte]
  omega

/-- A word is its four bytes, most significant first. -/
theorem append_bytes (w : Word32) :
    w.extractLsb' 24 8 ++ w.extractLsb' 16 8 ++ w.extractLsb' 8 8 ++ w.extractLsb' 0 8 = w := by
  rw [BitVec.extractLsb'_append_extractLsb'_eq_extractLsb' (show 24 = 16 + 8 from rfl),
    BitVec.extractLsb'_append_extractLsb'_eq_extractLsb' (show 16 = 8 + 8 from rfl),
    BitVec.extractLsb'_append_extractLsb'_eq_extractLsb' (show 8 = 0 + 8 from rfl)]
  exact BitVec.extractLsb'_eq_self

theorem wordOfDbuf_setWordOfDbuf (d : Vector Byte 80) (j : Fin 20) (w : Word32) :
    wordOfDbuf (setWordOfDbuf d j w) j = w := by
  calc wordOfDbuf (setWordOfDbuf d j w) j
      = w.extractLsb' 24 8 ++ w.extractLsb' 16 8 ++ w.extractLsb' 8 8 ++ w.extractLsb' 0 8 := by
        simp [wordOfDbuf, setWordOfDbuf]
    _ = w := append_bytes w

theorem getElem_setWordOfDbuf_other (d : Vector Byte 80) (j : Fin 20) (w : Word32) {k : Nat} (hk : k < 80)
    (hout : ¬(4 * j.val ≤ k ∧ k < 4 * j.val + 4)) : (setWordOfDbuf d j w)[k] = d[k] := by
  rw [setWordOfDbuf, Vector.getElem_set_ne _ _ (by omega), Vector.getElem_set_ne _ _ (by omega),
    Vector.getElem_set_ne _ _ (by omega), Vector.getElem_set_ne _ _ (by omega)]

theorem dbuf_inWindow (j : Fin 20) : 0x400 + 4 * j.val < 4096 ∧ (0x400 + 4 * j.val) % 4 = 0 := by
  omega

/-- Settles O50: the offset stands for word j of DBUF and is not locked; a word read back after its write is the
word written, and the bytes outside it are kept. -/
theorem dbufWindowHoldsTheBytes : Obligations.DbufWindowHoldsTheBytes := by
  intro s j w rest hb
  obtain ⟨hlt, h4⟩ := dbuf_inWindow j
  refine ⟨fun h => ⟨wordOfDbuf s.dbuf j, ?_, toNat_wordOfDbuf _ j⟩,
    fun h => ⟨setWordOfDbuf s.dbuf j w, ?_, ?_, fun k => getElem_setWordOfDbuf_other _ j w k.isLt⟩⟩
  · rw [step_read_unlocked h hlt h4 (isLocked_of_idle hb _), regionAt_dbuf]
    rfl
  · rw [step_write_unlocked h hlt h4 (isLocked_of_idle hb _), regionAt_dbuf]
    rfl
  · rw [← toNat_wordOfDbuf, wordOfDbuf_setWordOfDbuf]

/-! ## Refused accesses (20_memory.md R52, R59) -/

theorem isWordAccess_malformed {a : BusAccess}
    (h : a.width ≠ .bits32 ∨ a.offset.toNat % 4 ≠ 0 ∨ a.byteEnables ≠ 0b1111#4) : isWordAccess a ≠ true := by
  rw [Ne, isWordAccess_iff]
  rintro ⟨hwidth, halign, hbytes⟩
  obtain h | h | h := h <;> contradiction

theorem serve_malformed (s : State) {a : BusAccess} (h : isWordAccess a ≠ true) :
    s.serve a = refuseAccess a.kind s :=
  if_neg h

/-- Settles O51: the access is no word access, so the port refuses it, and a refusal writes the answer only. -/
theorem malformedAccessHasNoEffect : Obligations.MalformedAccessHasNoEffect := by
  intro s a rest h hbad
  have hstep : step s = .next (refuseAccess a.kind { s with schedule := rest }) := by
    rw [step_nextAccess h, serve_malformed _ (isWordAccess_malformed hbad)]
  refine ⟨fun hread => ?_, fun w hwrite => ?_⟩
  · rw [hstep, hread]
    rfl
  · rw [hstep, hwrite]
    rfl

end Sys2Proof.Machine
end

section
/-! PROOFS. The command words of 30_encoding.md: a word and a command that agree with one row of the opcode map stand
for each other, and the worked encodings. -/

namespace Sys2Proof.Laws

/-- 30_encoding.md R85 for a legal word: its OPC finds the row, the must-be-zero bits agree with the row's match, and the
row reads the command from the fields. -/
theorem decode_eq_ok_of_row {w : Word32} {i : Instr} (r : Row) (hrow : rowOf (opcField w) = some r)
    (hmask : w &&& r.mask = r.pattern) (hmake : r.make w = i) : decode w = .ok i := by
  rw [decode_of_row hrow, if_pos hmask, hmake]

/-! ## The worked encodings (30_encoding.md R90) -/

/-- Settles O1: each command's fields are laid out to R90's word, and that word decodes by the row of its OPC. -/
theorem workedEncodings : Obligations.WorkedEncodings := by
  have madd : decode 0x0448D000#32 = .ok (.madd .n 1 2 3) :=
    decode_eq_ok_of_row ⟨0x01, 0x04000000, 0xFC002FFF, _⟩ rfl (by decide) rfl
  have pmul : decode 0x80815000#32 = .ok (.pmul .naf 2 0 5) :=
    decode_eq_ok_of_row ⟨0x20, 0x80000000, 0xFC000FFF, _⟩ rfl (by decide) rfl
  have ldc : decode 0x29000003#32 = .ok (.ldc 4 .gx) :=
    decode_eq_ok_of_row ⟨0x0A, 0x28000000, 0xFC3FFFF8, _⟩ rfl (by decide) rfl
  have ddec : decode 0xA4040000#32 = .ok (.ddec 0 1) :=
    decode_eq_ok_of_row ⟨0x29, 0xA4000000, 0xFC03FFFF, _⟩ rfl (by decide) rfl
  exact ⟨⟨by decide, madd⟩, ⟨by decide, pmul⟩, ⟨by decide, ldc⟩, ⟨by decide, ddec⟩⟩

end Sys2Proof.Laws
end

section
/-! PROOFS. The word of a command is the only word that decodes to it (30_encoding.md R80 to R85): a row's mask makes
every field zero that the row's command does not read, so a word of the row is the encoding of its command. -/

namespace Sys2Proof.Laws

open Sys2Proof.Machine

/-! ## The fields a row's mask fixes -/

section
variable {w mask pattern : Word32} (h : w &&& mask = pattern)
include h

theorem masked_immField : immField w &&& immField mask = immField pattern := by
  rw [← h]
  exact BitVec.extractLsb'_and.symm

theorem masked_selField : selField w &&& selField mask = selField pattern := by
  rw [← h]
  exact BitVec.extractLsb'_and.symm

theorem immField_eq_zero (hm : immField mask = BitVec.allOnes 12) (hp : immField pattern = 0) : immField w = 0 := by
  rw [← hp, ← masked_immField h, hm, BitVec.and_allOnes]

theorem selField_eq_zero (hm : selField mask = BitVec.allOnes 2) (hp : selField pattern = 0) : selField w = 0 := by
  rw [← hp, ← masked_selField h, hm, BitVec.and_allOnes]

/-- A register field, four bits from bit k on, under a mask of ones. -/
theorem nibble_eq_zero {k : Nat} (hm : mask.extractLsb' k 4 = BitVec.allOnes 4) (hp : pattern.extractLsb' k 4 = 0) :
    (w.extractLsb' k 4).toFin = 0 := by
  rw [← BitVec.and_allOnes (x := w.extractLsb' k 4), ← hm, ← BitVec.extractLsb'_and, h, hp]
  rfl

theorem rdField_eq_zero (hm : rdField mask = 15) (hp : rdField pattern = 0) : rdField w = 0 :=
  nibble_eq_zero h (BitVec.eq_of_toFin_eq hm) (BitVec.eq_of_toFin_eq hp)

theorem raField_eq_zero (hm : raField mask = 15) (hp : raField pattern = 0) : raField w = 0 :=
  nibble_eq_zero h (BitVec.eq_of_toFin_eq hm) (BitVec.eq_of_toFin_eq hp)

theorem rbField_eq_zero (hm : rbField mask = 15) (hp : rbField pattern = 0) : rbField w = 0 :=
  nibble_eq_zero h (BitVec.eq_of_toFin_eq hm) (BitVec.eq_of_toFin_eq hp)

/-- A modular command's mask leaves one bit of SEL free, which its modulus carries. -/
theorem selOfModulus_modulusOfSel (hm : selField mask = 2) (hp : selField pattern = 0) :
    selOfModulus (modulusOfSel (selField w)) = selField w := by
  have hsel : selField w &&& 2 = 0 := by rw [← hm, masked_selField h, hp]
  generalize selField w = sel at hsel
  decide +revert

/-- LDC's mask leaves the three low bits of IMM free, which its constant carries. -/
theorem immOfConst_constOfImm (hm : immField mask = 0xFF8) (hp : immField pattern = 0) :
    immOfConst (constOfImm (immField w)) = immField w := by
  have himm : immField w &&& 0xFF8 = 0 := by rw [← hm, masked_immField h, hp]
  generalize immField w = imm at himm
  have hlow : imm = imm &&& 7 := by
    calc imm = imm &&& (0xFF8 ||| 7) := BitVec.and_allOnes.symm
      _ = (imm &&& 0xFF8) ||| (imm &&& 7) := BitVec.and_or_distrib_left
      _ = imm &&& 7 := by rw [himm]; exact BitVec.zero_or
  have hlt : imm.toNat < 8 := by
    rw [hlow, BitVec.toNat_and]
    exact Nat.lt_succ_of_le Nat.and_le_right
  obtain ⟨k, hk⟩ : ∃ k, imm.toNat = k := ⟨_, rfl⟩
  obtain rfl : imm = BitVec.ofNat 12 k := by rw [← hk, BitVec.ofNat_toNat, BitVec.setWidth_eq]
  rw [hk] at hlt
  interval_cases k <;> rfl

end

/-- All four values of SEL name an algorithm of PMUL. -/
theorem selOfAlgorithm_algorithmOfSel (sel : BitVec 2) : selOfAlgorithm (algorithmOfSel sel) = sel := by
  decide +revert

theorem ofNat_immField (w : Word32) : BitVec.ofNat 12 (immField w).toNat = immField w := by
  rw [BitVec.ofNat_toNat, BitVec.setWidth_eq]

/-! ## A word of a row is the encoding of the row's command -/

/-- The row loses no bit of a word it admits. -/
def KeepsTheWord (r : Row) : Prop :=
  ∀ w : Word32, opcField w = r.opc → w &&& r.mask = r.pattern → encode (r.make w) = w

/-- A word is built from values equal to its fields. -/
theorem cmdWord_eq {w : Word32} {o : BitVec 6} {d a b : Fin 16} {sel : BitVec 2} {imm : BitVec 12}
    (ho : opcField w = o) (hd : rdField w = d) (ha : raField w = a) (hb : rbField w = b) (hs : selField w = sel)
    (hi : immField w = imm) : cmdWord o d a b sel imm = w := by
  subst ho hd ha hb hs hi
  exact cmdWord_fields w

/-! The rows are split by the fields their masks leave free; `h` fixes the others. -/

theorem systemRows_keepTheWord : ∀ r ∈ systemRows, KeepsTheWord r := by
  simp only [systemRows, List.forall_mem_singleton]
  intro w ho h
  exact cmdWord_eq ho (rdField_eq_zero h rfl rfl) (raField_eq_zero h rfl rfl) (rbField_eq_zero h rfl rfl)
    (selField_eq_zero h rfl rfl) (immField_eq_zero h rfl rfl)

theorem modularRows_keepTheWord : ∀ r ∈ modularRows, KeepsTheWord r := by
  simp only [modularRows, List.forall_mem_cons, List.not_mem_nil, false_imp_iff, implies_true, and_true]
  refine ⟨?madd, ?msub, ?mmul, ?msqr, ?minv, ?mneg, ?mred⟩ <;> intro w ho h
  case madd | msub | mmul =>
    exact cmdWord_eq ho rfl rfl rfl (selOfModulus_modulusOfSel h rfl rfl).symm (immField_eq_zero h rfl rfl)
  case msqr | minv | mneg | mred =>
    exact cmdWord_eq ho rfl rfl (rbField_eq_zero h rfl rfl) (selOfModulus_modulusOfSel h rfl rfl).symm
      (immField_eq_zero h rfl rfl)

theorem registerRows_keepTheWord : ∀ r ∈ registerRows, KeepsTheWord r := by
  simp only [registerRows, List.forall_mem_cons, List.not_mem_nil, false_imp_iff, implies_true, and_true]
  refine ⟨?mov, ?ldi, ?ldc, ?cmp⟩ <;> intro w ho h
  case mov =>
    exact cmdWord_eq ho rfl rfl (rbField_eq_zero h rfl rfl) (selField_eq_zero h rfl rfl) (immField_eq_zero h rfl rfl)
  case ldi =>
    exact cmdWord_eq ho rfl (raField_eq_zero h rfl rfl) (rbField_eq_zero h rfl rfl) (selField_eq_zero h rfl rfl)
      (ofNat_immField w).symm
  case ldc =>
    exact cmdWord_eq ho rfl (raField_eq_zero h rfl rfl) (rbField_eq_zero h rfl rfl) (selField_eq_zero h rfl rfl)
      (immOfConst_constOfImm h rfl rfl).symm
  case cmp =>
    exact cmdWord_eq ho (rdField_eq_zero h rfl rfl) rfl rfl (selField_eq_zero h rfl rfl) (immField_eq_zero h rfl rfl)

theorem pointLoadRows_keepTheWord : ∀ r ∈ pointLoadRows, KeepsTheWord r := by
  simp only [pointLoadRows, List.forall_mem_cons, List.not_mem_nil, false_imp_iff, implies_true, and_true]
  refine ⟨?pld, ?pinf, ?pgen, ?px, ?py⟩ <;> intro w ho h
  case pld => exact cmdWord_eq ho rfl rfl rfl (selField_eq_zero h rfl rfl) (immField_eq_zero h rfl rfl)
  case pinf | pgen =>
    exact cmdWord_eq ho rfl (raField_eq_zero h rfl rfl) (rbField_eq_zero h rfl rfl) (selField_eq_zero h rfl rfl)
      (immField_eq_zero h rfl rfl)
  case px | py =>
    exact cmdWord_eq ho rfl rfl (rbField_eq_zero h rfl rfl) (selField_eq_zero h rfl rfl) (immField_eq_zero h rfl rfl)

theorem pointArithmeticRows_keepTheWord : ∀ r ∈ pointArithmeticRows, KeepsTheWord r := by
  simp only [pointArithmeticRows, List.forall_mem_cons, List.not_mem_nil, false_imp_iff, implies_true, and_true]
  refine ⟨?padd, ?pdbl, ?ptpl, ?pneg, ?pnorm, ?ppow2, ?peq, ?pmul⟩ <;> intro w ho h
  case padd | ptpl => exact cmdWord_eq ho rfl rfl rfl (selField_eq_zero h rfl rfl) (immField_eq_zero h rfl rfl)
  case pdbl | pneg | pnorm =>
    exact cmdWord_eq ho rfl rfl (rbField_eq_zero h rfl rfl) (selField_eq_zero h rfl rfl) (immField_eq_zero h rfl rfl)
  case ppow2 =>
    exact cmdWord_eq ho rfl rfl (rbField_eq_zero h rfl rfl) (selField_eq_zero h rfl rfl) (ofNat_immField w).symm
  case peq =>
    exact cmdWord_eq ho (rdField_eq_zero h rfl rfl) rfl rfl (selField_eq_zero h rfl rfl) (immField_eq_zero h rfl rfl)
  case pmul => exact cmdWord_eq ho rfl rfl rfl (selOfAlgorithm_algorithmOfSel _).symm (immField_eq_zero h rfl rfl)

theorem signatureRows_keepTheWord : ∀ r ∈ signatureRows, KeepsTheWord r := by
  simp only [signatureRows, List.forall_mem_cons, List.not_mem_nil, false_imp_iff, implies_true, and_true]
  refine ⟨?denc, ?ddec, ?lows, ?schk⟩ <;> intro w ho h
  case denc | schk =>
    exact cmdWord_eq ho (rdField_eq_zero h rfl rfl) rfl rfl (selField_eq_zero h rfl rfl) (immField_eq_zero h rfl rfl)
  case ddec | lows =>
    exact cmdWord_eq ho rfl rfl (rbField_eq_zero h rfl rfl) (selField_eq_zero h rfl rfl) (immField_eq_zero h rfl rfl)

theorem opcodeMap_keepsTheWord : ∀ r ∈ opcodeMap, KeepsTheWord r := by
  simp only [opcodeMap, List.forall_mem_append]
  exact ⟨⟨⟨⟨⟨systemRows_keepTheWord, modularRows_keepTheWord⟩, registerRows_keepTheWord⟩, pointLoadRows_keepTheWord⟩,
    pointArithmeticRows_keepTheWord⟩, signatureRows_keepTheWord⟩

/-! ## The one word of a command -/

theorem rowOf_eq_some {o : BitVec 6} {r : Row} (h : rowOf o = some r) : r ∈ opcodeMap ∧ o = r.opc := by
  rw [rowOf] at h
  exact ⟨List.mem_of_find?_eq_some h, (eq_of_beq (List.find?_some (p := fun r : Row => r.opc == o) h)).symm⟩

/-- No two rows have the same OPC. -/
theorem rowOf_opc : ∀ r ∈ opcodeMap, rowOf r.opc = some r := by
  simp only [opcodeMap, systemRows, modularRows, registerRows, pointLoadRows, pointArithmeticRows, signatureRows,
    List.forall_mem_append, List.forall_mem_cons, List.not_mem_nil, false_imp_iff, implies_true, and_true]
  and_intros <;> rfl

/-- A legal word is a word of its row, and its command is the row's. -/
theorem decode_eq_ok {w : Word32} {i : Instr} (h : decode w = .ok i) :
    ∃ r ∈ opcodeMap, opcField w = r.opc ∧ w &&& r.mask = r.pattern ∧ r.make w = i := by
  cases hrow : rowOf (opcField w) with
  | none =>
    rw [decode_of_noRow hrow] at h
    contradiction
  | some r =>
    obtain ⟨hmem, hopc⟩ := rowOf_eq_some hrow
    rw [decode_of_row hrow] at h
    split at h
    next hmask => exact ⟨r, hmem, hopc, hmask, Except.ok.inj h⟩
    next => contradiction

/-- Each word stands for at most one command: it is the encoding of what it decodes to. -/
theorem encode_of_decode_eq_ok {w : Word32} {i : Instr} (h : decode w = .ok i) : encode i = w := by
  obtain ⟨r, hmem, hopc, hmask, rfl⟩ := decode_eq_ok h
  exact opcodeMap_keepsTheWord r hmem w hopc hmask

/-- A command whose row reads it back from its word is the meaning of that word and of no other. -/
theorem decode_iff_of_row {i : Instr} {r : Row} {o : BitVec 6} (hword : WordInItsRow.Statement i)
    (hwf : i.wellFormed = true) (ho : opcField (encode i) = o) (hrow : rowOf o = some r)
    (hmake : r.make (encode i) = i) (w : Word32) : decode w = .ok i ↔ w = encode i := by
  subst ho
  refine ⟨fun h => (encode_of_decode_eq_ok h).symm, ?_⟩
  rintro rfl
  obtain ⟨r', hmem', hopc', hmask'⟩ := hword hwf
  have hsame : r' = r := by
    rw [← hopc', rowOf_opc r' hmem'] at hrow
    exact Option.some.inj hrow
  subst hsame
  exact decode_eq_ok_of_row r' hrow hmask' hmake

section
variable (m : Modulus) (vd va vb : VReg)

theorem encodes_madd : Encodes (.madd m vd va vb) 0x01 vd va vb (selOfModulus m) 0 :=
  decode_iff_of_row (WordInItsRow.madd m vd va vb) rfl (opcField_cmdWord ..) rfl (by simp [encode])

theorem encodes_msub : Encodes (.msub m vd va vb) 0x02 vd va vb (selOfModulus m) 0 :=
  decode_iff_of_row (WordInItsRow.msub m vd va vb) rfl (opcField_cmdWord ..) rfl (by simp [encode])

theorem encodes_mmul : Encodes (.mmul m vd va vb) 0x03 vd va vb (selOfModulus m) 0 :=
  decode_iff_of_row (WordInItsRow.mmul m vd va vb) rfl (opcField_cmdWord ..) rfl (by simp [encode])

theorem encodes_msqr : Encodes (.msqr m vd va) 0x04 vd va 0 (selOfModulus m) 0 :=
  decode_iff_of_row (WordInItsRow.msqr m vd va) rfl (opcField_cmdWord ..) rfl (by simp [encode])

theorem encodes_minv : Encodes (.minv m vd va) 0x05 vd va 0 (selOfModulus m) 0 :=
  decode_iff_of_row (WordInItsRow.minv m vd va) rfl (opcField_cmdWord ..) rfl (by simp [encode])

theorem encodes_mneg : Encodes (.mneg m vd va) 0x06 vd va 0 (selOfModulus m) 0 :=
  decode_iff_of_row (WordInItsRow.mneg m vd va) rfl (opcField_cmdWord ..) rfl (by simp [encode])

theorem encodes_mred : Encodes (.mred m vd va) 0x07 vd va 0 (selOfModulus m) 0 :=
  decode_iff_of_row (WordInItsRow.mred m vd va) rfl (opcField_cmdWord ..) rfl (by simp [encode])

theorem encodes_mov : Encodes (.mov vd va) 0x08 vd va 0 0 0 :=
  decode_iff_of_row (WordInItsRow.mov vd va) rfl (opcField_cmdWord ..) rfl (by simp [encode])

theorem encodes_ldi {imm : Nat} (h : imm < 4096) : Encodes (.ldi vd imm) 0x09 vd 0 0 0 (BitVec.ofNat 12 imm) :=
  decode_iff_of_row (WordInItsRow.ldi vd imm) (decide_eq_true h) (opcField_cmdWord ..) rfl
    (by simp [encode, Nat.mod_eq_of_lt h])

theorem encodes_ldc (c : CurveConst) : Encodes (.ldc vd c) 0x0A vd 0 0 0 (immOfConst c) :=
  decode_iff_of_row (WordInItsRow.ldc vd c) rfl (opcField_cmdWord ..) rfl (by simp [encode])

theorem encodes_cmp : Encodes (.cmp va vb) 0x0B 0 va vb 0 0 :=
  decode_iff_of_row (WordInItsRow.cmp va vb) rfl (opcField_cmdWord ..) rfl (by simp [encode])

end

end Sys2Proof.Laws
end

section
/-! PROOFS. The commands of 40_field.md. First the rules about a command's success: what each state update keeps and how
a command that writes one value register ends. Then the values of the modular results, and the obligations. -/

namespace Sys2Proof.Machine

open Sys2Proof.Laws

/-! ## What each update keeps -/

section
variable {k : Writes} {s t : State}

theorem FrameBut.refl (k : Writes) (s : State) : FrameBut k s s :=
  ⟨fun _ _ => rfl, fun _ _ => rfl, fun _ _ => rfl, fun _ => rfl, fun _ => rfl, fun _ => rfl, fun _ => rfl, fun _ => rfl,
    fun _ => rfl, fun _ => rfl, rfl, rfl, rfl, rfl, rfl, rfl⟩

theorem FrameBut.writeV (h : FrameBut k s t) {vd : VReg} (hvd : vd ∈ k.v) (x : Word256) :
    FrameBut k s (t.writeV vd x) :=
  { h with
    v := fun i hi => (readV_writeV_other t (ne_of_mem_of_not_mem hvd hi).symm x).trans (h.v i hi)
    p := h.p }

theorem FrameBut.setZ (h : FrameBut k s t) (hz : k.z = true) (b : Bool) : FrameBut k s (t.setZ b) :=
  { h with
    v := h.v
    p := h.p
    flagZ := fun hk => absurd (hz.symm.trans hk) nofun }

theorem FrameBut.setCompare (h : FrameBut k s t) (hc : k.compare = true) (eq lt : Bool) :
    FrameBut k s (t.setCompare eq lt) :=
  { h with
    v := h.v
    p := h.p
    flagEq := fun hk => absurd (hc.symm.trans hk) nofun
    flagLt := fun hk => absurd (hc.symm.trans hk) nofun }

theorem FrameBut.complete (h : FrameBut k s t) : FrameBut k s t.complete :=
  { h with
    v := h.v
    p := h.p }

end

/-! ## A command that succeeds -/

section
variable {i : Instr} {s : State} {vd : VReg}

/-- A command that succeeds in u, where u keeps what the command may not write, completes. -/
theorem completes_of_succeed {u : State} (hruns : exec i s = succeed u) (hframe : FrameBut (writes i) s u)
    (herr : u.err = s.err) (hcode : u.errcode = s.errcode) : Completes i s u.complete :=
  ⟨hruns, endedWell_complete herr hcode, hframe.complete⟩

/-- A command that writes V[RD] and no flag. -/
theorem completes_load {x : Word256} (hruns : exec i s = succeed (s.writeV vd x)) (hw : writes i = { v := [vd] }) :
    ∃ t, Completes i s t ∧ t.readV vd = x := by
  have hvd : vd ∈ (writes i).v := by rw [hw]; exact List.mem_singleton_self vd
  exact ⟨_, completes_of_succeed hruns ((FrameBut.refl _ s).writeV hvd x) rfl rfl, readV_writeV_same s vd x⟩

/-- A command that writes a 256-bit number to V[RD] and sets Z by it. -/
theorem completes_finishModular {r : Nat} (hruns : exec i s = finishModular vd r s)
    (hw : writes i = { v := [vd], z := true }) (hr : r < 2 ^ 256) :
    ∃ t, Completes i s t ∧ t.valueV vd = r ∧ t.flagZ = decide (t.valueV vd = 0) := by
  have hvd : vd ∈ (writes i).v := by rw [hw]; exact List.mem_singleton_self vd
  have hz : (writes i).z = true := by rw [hw]
  have hvalue : (s.writeV vd (word256 r)).valueV vd = r := by
    rw [State.valueV, readV_writeV_same, toNat_word256 hr]
  refine ⟨_, completes_of_succeed hruns (((FrameBut.refl _ s).writeV hvd _).setZ hz _) rfl rfl, hvalue, ?_⟩
  exact congrArg (fun x => decide (x = 0)) hvalue.symm

end

/-! ## Two checked operands -/

section
variable {m : Nat} {va vb : VReg} {s : State} {k : Nat → Nat → Out}

theorem withBelow_two_of_lt (ha : s.valueV va < m) (hb : s.valueV vb < m) :
    withBelow m va s (fun a => withBelow m vb s (k a)) = k (s.valueV va) (s.valueV vb) := by
  rw [withBelow_of_lt ha, withBelow_of_lt hb]

theorem withBelow_two_of_le (h : m ≤ s.valueV va ∨ m ≤ s.valueV vb) :
    withBelow m va s (fun a => withBelow m vb s (k a)) = .next (failed s .operandRange) := by
  obtain ⟨-, ha⟩ | ⟨hlt, ha⟩ := withBelow_cases m va s fun a => withBelow m vb s (k a)
  · exact ha
  · rw [ha, withBelow_of_le (h.resolve_left (Nat.not_le_of_lt hlt))]

/-- Checking an operand twice is checking it once. -/
theorem withBelow_two_same :
    withBelow m va s (fun a => withBelow m va s (k a)) = withBelow m va s (fun a => k a a) := by
  rcases Nat.lt_or_ge (s.valueV va) m with h | h
  · rw [withBelow_two_of_lt h h, withBelow_of_lt h]
  · rw [withBelow_of_le h, withBelow_of_le h]

end

/-! ## The moduli and the values of 40_field.md -/

theorem prime_modulusValue (m : Modulus) : (modulusValue m).Prime := by
  cases m
  · exact prime_p
  · exact prime_n

theorem modulusValue_pos (m : Modulus) : 0 < modulusValue m := (prime_modulusValue m).pos

theorem modulusValue_lt (m : Modulus) : modulusValue m < 2 ^ 256 := by
  cases m
  · exact p_lt
  · exact n_lt

/-- Every 256-bit value is below 2m (40_field.md R109). -/
theorem pow_le_two_mul_modulusValue (m : Modulus) : 2 ^ 256 ≤ 2 * modulusValue m := by
  cases m <;> decide

theorem modZ_sub {m a b : Nat} (ha : a < m) (hb : b < m) :
    modZ m ((a : Int) - b) = if b ≤ a then a - b else a + m - b := by
  split
  next h => rw [← Nat.cast_sub h, modZ_natCast, Nat.mod_eq_of_lt (by omega)]
  next h =>
    have hshift : (a : Int) - b + m = ((a + m - b : Nat) : Int) := by omega
    rw [modZ, ← Int.add_emod_right, hshift, ← modZ, modZ_natCast, Nat.mod_eq_of_lt (by omega)]

theorem mod_eq_sub_once {m a : Nat} (h : a < 2 * m) : a % m = if a < m then a else a - m := by
  split
  next hlt => exact Nat.mod_eq_of_lt hlt
  next hge => rw [Nat.mod_eq_sub_mod (by omega), Nat.mod_eq_of_lt (by omega)]

/-- 40_field.md R105: m is prime, so a product of two non-zero elements is never 0. -/
theorem mul_mod_eq_zero_iff {m a b : Nat} (hm : m.Prime) (ha : a < m) (hb : b < m) :
    a * b % m = 0 ↔ a = 0 ∨ b = 0 := by
  have hdvd : ∀ {c : Nat}, c < m → (m ∣ c ↔ c = 0) := fun hc =>
    ⟨fun h => Nat.eq_zero_of_dvd_of_lt h hc, fun h => h ▸ dvd_zero m⟩
  rw [← Nat.dvd_iff_mod_eq_zero, hm.dvd_mul, hdvd ha, hdvd hb]

/-- A command that ends by writing an integer reduced mod m. -/
theorem completes_modular {i : Instr} {s : State} {vd : VReg} {m : Modulus} {r : Int}
    (hruns : exec i s = finishModular vd (modZ (modulusValue m) r) s) (hw : writes i = { v := [vd], z := true }) :
    ∃ t, Completes i s t ∧ t.valueV vd = modZ (modulusValue m) r ∧ t.flagZ = decide (t.valueV vd = 0) :=
  completes_finishModular hruns hw ((modZ_lt (modulusValue_pos m) r).trans (modulusValue_lt m))

/-- A command that checks two operands and writes f of them, reduced. -/
theorem modular_two_operands {i : Instr} {m : Modulus} {vd va vb : VReg} {s : State} (f : Nat → Nat → Int)
    (hexec : exec i s = withBelow (modulusValue m) va s fun a => withBelow (modulusValue m) vb s fun b =>
      finishModular vd (modZ (modulusValue m) (f a b)) s)
    (hw : writes i = { v := [vd], z := true }) :
    (s.valueV va < modulusValue m → s.valueV vb < modulusValue m →
      ∃ t, Completes i s t ∧ t.valueV vd = modZ (modulusValue m) (f (s.valueV va) (s.valueV vb)) ∧
        t.flagZ = decide (t.valueV vd = 0)) ∧
    (modulusValue m ≤ s.valueV va ∨ modulusValue m ≤ s.valueV vb → exec i s = .next (failed s .operandRange)) :=
  ⟨fun ha hb => completes_modular (hexec.trans (withBelow_two_of_lt ha hb)) hw,
    fun h => hexec.trans (withBelow_two_of_le h)⟩

/-- A command that checks one operand and writes f of it, reduced. -/
theorem modular_one_operand {i : Instr} {m : Modulus} {vd va : VReg} {s : State} (f : Nat → Int)
    (hexec : exec i s = withBelow (modulusValue m) va s fun a => finishModular vd (modZ (modulusValue m) (f a)) s)
    (hw : writes i = { v := [vd], z := true }) :
    (s.valueV va < modulusValue m →
      ∃ t, Completes i s t ∧ t.valueV vd = modZ (modulusValue m) (f (s.valueV va)) ∧
        t.flagZ = decide (t.valueV vd = 0)) ∧
    (modulusValue m ≤ s.valueV va → exec i s = .next (failed s .operandRange)) :=
  ⟨fun ha => completes_modular (hexec.trans (withBelow_of_lt ha)) hw, fun h => hexec.trans (withBelow_of_le h)⟩

/-! ## The modular arithmetic unit -/

/-- Settles O12: two operands in range lead to the reduced sum, and one out of range is refused before that. -/
theorem maddAdds : Obligations.MaddAdds := by
  intro m vd va vb s
  obtain ⟨hcompletes, hrange⟩ := modular_two_operands (i := .madd m vd va vb) (s := s) (fun a b => a + b) rfl rfl
  refine ⟨encodes_madd m vd va vb, fun ha hb => ?_, hrange⟩
  simp only [← Nat.cast_add, modZ_natCast] at hcompletes
  exact hcompletes ha hb

/-- Settles O13: as MADD, with the difference; a borrow adds m once, because both operands are below m. -/
theorem msubSubtracts : Obligations.MsubSubtracts := by
  intro m vd va vb s
  obtain ⟨hcompletes, hrange⟩ := modular_two_operands (i := .msub m vd va vb) (s := s) (fun a b => a - b) rfl rfl
  refine ⟨encodes_msub m vd va vb, fun ha hb => ?_, hrange⟩
  rw [← modZ_sub ha hb]
  exact hcompletes ha hb

/-- Settles O14: as MADD, with the product; it is 0 only for a zero factor, because m is prime. -/
theorem mmulMultiplies : Obligations.MmulMultiplies := by
  intro m vd va vb s
  obtain ⟨hcompletes, hrange⟩ := modular_two_operands (i := .mmul m vd va vb) (s := s) (fun a b => a * b) rfl rfl
  refine ⟨encodes_mmul m vd va vb, fun ha hb => ?_, hrange⟩
  obtain ⟨t, ht, hvalue, hz⟩ := hcompletes ha hb
  rw [← Nat.cast_mul, modZ_natCast] at hvalue
  refine ⟨t, ht, hvalue, hz, ?_⟩
  rw [hvalue]
  exact mul_mod_eq_zero_iff (prime_modulusValue m) ha hb

/-- Settles O15: MMUL with RB = RA checks the one operand twice, so it is MSQR. -/
theorem msqrSquares : Obligations.MsqrSquares := by
  intro m vd va s
  obtain ⟨hcompletes, hrange⟩ := modular_one_operand (i := .msqr m vd va) (s := s) (fun a => a * a) rfl rfl
  simp only [← Nat.cast_mul, modZ_natCast] at hcompletes
  refine ⟨encodes_msqr m vd va, hcompletes, hrange, ?_⟩
  rw [exec, exec, execMsqr, execMmul, withBelow_two_same]

theorem exec_minv_of_pos {m : Modulus} {vd va : VReg} {s : State} (h0 : 0 < s.valueV va)
    (ha : s.valueV va < modulusValue m) :
    exec (.minv m vd va) s = finishModular vd (modInv (modulusValue m) (s.valueV va)) s := by
  obtain ⟨hpos, -, -⟩ := modInv_spec (prime_modulusValue m) (modulusValue_lt m) h0 ha
  rw [exec, execMinv, withBelow_of_lt ha, if_neg h0.ne', finishModular, decide_eq_false hpos.ne']

theorem exec_minv_of_zero {m : Modulus} {vd va : VReg} {s : State} (h : s.valueV va = 0) :
    exec (.minv m vd va) s = .next (failed s .notInvertible) := by
  rw [exec, execMinv, withBelow_of_lt (h ▸ modulusValue_pos m), if_pos h]
  rfl

theorem exec_minv_of_le {m : Modulus} {vd va : VReg} {s : State} (h : modulusValue m ≤ s.valueV va) :
    exec (.minv m vd va) s = .next (failed s .operandRange) := by
  rw [exec, execMinv, withBelow_of_le h]

/-- Settles O16: the power the command computes is the inverse by Fermat's theorem (modInv_spec); it is not 0, so
Z = 0. -/
theorem minvInverts : Obligations.MinvInverts := by
  intro m vd va s
  refine ⟨encodes_minv m vd va, fun h0 ha => ?_, exec_minv_of_le, exec_minv_of_zero⟩
  obtain ⟨hpos, hlt, hinv⟩ := modInv_spec (prime_modulusValue m) (modulusValue_lt m) h0 ha
  obtain ⟨t, ht, hvalue, hz⟩ :=
    completes_finishModular (exec_minv_of_pos (vd := vd) h0 ha) rfl (hlt.trans (modulusValue_lt m))
  rw [← hvalue] at hpos hlt hinv
  exact ⟨t, ht, hpos, hlt, hinv, hz.trans (decide_eq_false hpos.ne')⟩

/-- Settles O17: the result is the difference 0 - a of O13. -/
theorem mnegNegates : Obligations.MnegNegates := by
  intro m vd va s
  obtain ⟨hcompletes, hrange⟩ := modular_one_operand (i := .mneg m vd va) (s := s) (fun a => 0 - a) rfl rfl
  refine ⟨encodes_mneg m vd va, fun ha => ?_, hrange⟩
  have hneg := modZ_sub (modulusValue_pos m) ha
  simp only [Nat.le_zero, Nat.zero_sub, Nat.zero_add] at hneg
  rw [← hneg]
  exact hcompletes ha

/-- Settles O18: the operand is not checked, and a 256-bit value below 2m loses m at most once. -/
theorem mredReduces : Obligations.MredReduces := by
  intro m vd va s
  obtain ⟨t, hcompletes, hvalue, hz⟩ := completes_modular (i := .mred m vd va) (s := s) rfl rfl
  rw [modZ_natCast] at hvalue
  have hlt : s.valueV va < 2 * modulusValue m := (valueV_lt s va).trans_le (pow_le_two_mul_modulusValue m)
  exact ⟨encodes_mred m vd va, t, hcompletes, hvalue, hvalue.trans (mod_eq_sub_once hlt), hz⟩

/-! ## The value-register commands -/

theorem ldi_completes {vd : VReg} {imm : Nat} (s : State) (h : imm < 4096) :
    ∃ t, Completes (.ldi vd imm) s t ∧ t.valueV vd = imm := by
  obtain ⟨t, hcompletes, hread⟩ := completes_load (i := .ldi vd imm) (s := s) rfl rfl
  exact ⟨t, hcompletes, by rw [State.valueV, hread, immValue, toNat_word256 (by omega)]⟩

theorem constValue_lt (c : CurveConst) : constValue c < 2 ^ 256 := by
  cases c <;> decide

theorem ldc_completes (vd : VReg) (c : CurveConst) (s : State) :
    ∃ t, Completes (.ldc vd c) s t ∧ t.valueV vd = constValue c := by
  obtain ⟨t, hcompletes, hread⟩ := completes_load (i := .ldc vd c) (s := s) rfl rfl
  exact ⟨t, hcompletes, by rw [State.valueV, hread, toNat_word256 (constValue_lt c)]⟩

/-- The list of R112 is the constants with the index that encodes them. -/
theorem ldc_list {cv : CurveConst × Nat × Nat}
    (h : cv ∈ [(CurveConst.p, 0, Config.p), (.n, 1, Config.n), (.halfN, 2, (Config.n - 1) / 2), (.gx, 3, Config.gx),
      (.gy, 4, Config.gy), (.b, 5, 7), (.h, 6, 1), (.a, 7, 0)]) :
    BitVec.ofNat 12 cv.2.1 = immOfConst cv.1 ∧ cv.2.2 = constValue cv.1 := by
  revert cv
  decide

/-- Settles O19: each command writes its register and succeeds; LDI's and LDC's numbers fit 256 bits. -/
theorem registerCommandsLoad : Obligations.RegisterCommandsLoad := by
  intro vd va s
  refine ⟨⟨encodes_mov vd va, completes_load rfl rfl⟩,
    fun imm h => ⟨encodes_ldi vd h, ldi_completes s h⟩, fun cv hcv => ?_⟩
  obtain ⟨himm, hvalue⟩ := ldc_list hcv
  rw [himm, hvalue]
  exact ⟨encodes_ldc vd cv.1, ldc_completes vd cv.1 s⟩

/-- Settles O20: the command succeeds with the two comparisons as its flags and writes no register. -/
theorem cmpCompares : Obligations.CmpCompares := by
  intro va vb s
  have hframe := (FrameBut.refl (writes (.cmp va vb)) s).setCompare rfl (decide (s.valueV va = s.valueV vb))
    (decide (s.valueV va < s.valueV vb))
  exact ⟨encodes_cmp va vb, _, completes_of_succeed rfl hframe rfl rfl, rfl, rfl⟩

end Sys2Proof.Machine
end

section
/-! PROOFS. The words of the point commands (30_encoding.md R84), and the group law of 41_point.md R121 as equations
mod p: the slopes, the sum, the double, the negative and the chain of doublings. -/

namespace Sys2Proof.Laws

open Sys2Proof.Machine

/-! ## The words of the point commands -/

section
variable (vd va vb : VReg) (pd pa pb : PReg)

theorem encodes_pld : Encodes (.pld pd va vb) 0x10 pd va vb 0 0 :=
  decode_iff_of_row (WordInItsRow.pld pd va vb) rfl (opcField_cmdWord ..) rfl (by simp [encode])

theorem encodes_pinf : Encodes (.pinf pd) 0x11 pd 0 0 0 0 :=
  decode_iff_of_row (WordInItsRow.pinf pd) rfl (opcField_cmdWord ..) rfl (by simp [encode])

theorem encodes_pgen : Encodes (.pgen pd) 0x12 pd 0 0 0 0 :=
  decode_iff_of_row (WordInItsRow.pgen pd) rfl (opcField_cmdWord ..) rfl (by simp [encode])

theorem encodes_px : Encodes (.px vd pa) 0x13 vd pa 0 0 0 :=
  decode_iff_of_row (WordInItsRow.px vd pa) rfl (opcField_cmdWord ..) rfl (by simp [encode])

theorem encodes_py : Encodes (.py vd pa) 0x14 vd pa 0 0 0 :=
  decode_iff_of_row (WordInItsRow.py vd pa) rfl (opcField_cmdWord ..) rfl (by simp [encode])

theorem encodes_padd : Encodes (.padd pd pa pb) 0x15 pd pa pb 0 0 :=
  decode_iff_of_row (WordInItsRow.padd pd pa pb) rfl (opcField_cmdWord ..) rfl (by simp [encode])

theorem encodes_pdbl : Encodes (.pdbl pd pa) 0x16 pd pa 0 0 0 :=
  decode_iff_of_row (WordInItsRow.pdbl pd pa) rfl (opcField_cmdWord ..) rfl (by simp [encode])

theorem encodes_ptpl : Encodes (.ptpl pd pa pb) 0x17 pd pa pb 0 0 :=
  decode_iff_of_row (WordInItsRow.ptpl pd pa pb) rfl (opcField_cmdWord ..) rfl (by simp [encode])

theorem encodes_pneg : Encodes (.pneg pd pa) 0x18 pd pa 0 0 0 :=
  decode_iff_of_row (WordInItsRow.pneg pd pa) rfl (opcField_cmdWord ..) rfl (by simp [encode])

theorem encodes_pnorm : Encodes (.pnorm pd pa) 0x19 pd pa 0 0 0 :=
  decode_iff_of_row (WordInItsRow.pnorm pd pa) rfl (opcField_cmdWord ..) rfl (by simp [encode])

theorem encodes_ppow2 {count : Nat} (h : count < 4096) :
    Encodes (.ppow2 pd pa count) 0x1A pd pa 0 0 (BitVec.ofNat 12 count) :=
  decode_iff_of_row (WordInItsRow.ppow2 pd pa count) (decide_eq_true h) (opcField_cmdWord ..) rfl
    (by simp [encode, Nat.mod_eq_of_lt h])

theorem encodes_peq : Encodes (.peq pa pb) 0x1B 0 pa pb 0 0 :=
  decode_iff_of_row (WordInItsRow.peq pa pb) rfl (opcField_cmdWord ..) rfl (by simp [encode])

end

/-! ## The curve equation and the slopes -/

/-- The curve equation as 41_point.md R122 writes it. -/
theorem curveEq_iff_mod (x y : Nat) : curveEq x y = true ↔ y ^ 2 % Config.p = (x ^ 3 + 7) % Config.p := by
  rw [curveEq_iff, ← ZMod.natCast_eq_natCast_iff']
  push_cast
  rfl

theorem modP_modEq (k : Int) : (modP k : Int) ≡ k [ZMOD Config.p] := by
  rw [modP, modZ_cast _ p_pos]
  exact Int.mod_modEq k Config.p

theorem natCast_ne_zero_of_lt {y : Nat} (h0 : y ≠ 0) (hy : y < Config.p) : (y : ZMod Config.p) ≠ 0 := by
  rwa [← Nat.cast_zero, Ne, natCast_inj_of_lt hy p_pos]

/-- The model's quotient k / d solves the equation that the group law puts on a slope. -/
theorem slope_modEq (k : Int) {d : Int} (hd : (d : ZMod Config.p) ≠ 0) :
    (modP (k * modInv Config.p (modP d)) : Int) * d ≡ k [ZMOD Config.p] := by
  have : Fact (Nat.Prime Config.p) := ⟨prime_p⟩
  rw [← ZMod.intCast_eq_intCast_iff]
  calc (((modP (k * modInv Config.p (modP d)) : Int) * d : Int) : ZMod Config.p)
      = (k * (d : ZMod Config.p)⁻¹) * d := by
        rw [Int.cast_mul, Int.cast_natCast, modP_zmod, Int.cast_mul, Int.cast_natCast, modInv_cast d hd]
    _ = k := inv_mul_cancel_right₀ hd _

/-! ## The model's operations meet the equations -/

theorem isChordPoint_chord (l x1 y1 x2 : Nat) : isChordPoint l x1 y1 x2 (chord l x1 y1 x2) :=
  ⟨_, _, rfl, modP_lt _, modP_lt _, modP_modEq _, modP_modEq _⟩

theorem isDouble_dbl {A : Point} (hA : onCurve A = true) : isDouble A (dbl A) := by
  cases A with
  | infinity => rfl
  | affine x y =>
    have hy0 : y ≠ 0 := y_ne_zero hA
    obtain ⟨-, hy, -⟩ := (onCurve_affine_iff x y).mp hA
    have hd : ((2 * (y : Int) : Int) : ZMod Config.p) ≠ 0 := by
      have : Fact (Nat.Prime Config.p) := ⟨prime_p⟩
      push_cast
      exact mul_ne_zero two_ne_zero_p (natCast_ne_zero_of_lt hy0 hy)
    rw [dbl, if_neg hy0]
    exact .inr ⟨hy0, _, slope_modEq _ hd, isChordPoint_chord ..⟩

/-- The slope's denominator for two points of different x. -/
theorem sub_cast_ne_zero {x1 x2 : Nat} (hx1 : x1 < Config.p) (hx2 : x2 < Config.p) (h : x1 ≠ x2) :
    (((x2 : Int) - x1 : Int) : ZMod Config.p) ≠ 0 := by
  push_cast
  rw [sub_ne_zero, Ne, natCast_inj_of_lt hx2 hx1]
  exact h.symm

theorem isSum_addE {A B : Point} (hA : onCurve A = true) (hB : onCurve B = true) : isSum A B (addE A B) := by
  cases A with
  | infinity => rfl
  | affine x1 y1 =>
    cases B with
    | infinity => rfl
    | affine x2 y2 =>
      have hsum : modP ((y1 : Int) + y2) = (y1 + y2) % Config.p := by rw [modP, ← Nat.cast_add, modZ_natCast]
      rw [addE, hsum]
      split_ifs with hopposite hx
      · exact .inl ⟨hopposite.1, hopposite.2, rfl⟩
      · exact .inr (.inl ⟨hx, fun h => hopposite ⟨hx, h⟩, isDouble_dbl hA⟩)
      · obtain ⟨hx1, -, -⟩ := (onCurve_affine_iff x1 y1).mp hA
        obtain ⟨hx2, -, -⟩ := (onCurve_affine_iff x2 y2).mp hB
        exact .inr (.inr ⟨hx, _, slope_modEq _ (sub_cast_ne_zero hx1 hx2 hx), isChordPoint_chord ..⟩)

theorem modP_neg {y : Nat} (hy : y < Config.p) : modP (0 - (y : Int)) = (Config.p - y) % Config.p := by
  have hshift : 0 - (y : Int) + Config.p = ((Config.p - y : Nat) : Int) := by omega
  rw [modP, modZ, ← Int.add_emod_right, hshift, ← modZ, modZ_natCast]

theorem onCurve_dbl {A : Point} (hA : onCurve A = true) : onCurve (dbl A) = true :=
  have : Fact (Nat.Prime Config.p) := ⟨prime_p⟩
  (dbl_spec hA).1

/-! ## Doublings and sums -/

/-- The last doubling of the chain, where timesPow2_succ splits off the first. -/
theorem timesPow2_succ_eq_dbl (c : Nat) (A : Point) : timesPow2 (c + 1) A = dbl (timesPow2 c A) := by
  induction c generalizing A with
  | zero => rw [timesPow2_succ, timesPow2_zero, timesPow2_zero]
  | succ c ih => rw [timesPow2_succ, ih, ← timesPow2_succ]

theorem onCurve_timesPow2 {A : Point} (hA : onCurve A = true) (c : Nat) : onCurve (timesPow2 c A) = true := by
  induction c with
  | zero => exact hA
  | succ c ih =>
    rw [timesPow2_succ_eq_dbl]
    exact onCurve_dbl ih

/-- Only O is doubled to O, however often. -/
theorem timesPow2_eq_infinity {A : Point} (hA : onCurve A = true) (c : Nat) :
    timesPow2 c A = .infinity ↔ A = .infinity := by
  induction c with
  | zero => rfl
  | succ c ih => rw [timesPow2_succ_eq_dbl, dbl_eq_infinity (onCurve_timesPow2 hA c), ih]

section
variable [Fact (Nat.Prime Config.p)] {A : Point} (hA : onCurve A = true)
include hA

theorem kFold_spec (k : Nat) : onCurve (kFold k A) = true ∧ toGroup (kFold k A) = k • toGroup A := by
  induction k with
  | zero => exact ⟨rfl, (zero_nsmul _).symm⟩
  | succ k ih =>
    obtain ⟨hcurve, hgroup⟩ := ih
    obtain ⟨hcurve', hgroup'⟩ := addE_spec hcurve hA
    rw [kFold_succ, succ_nsmul, ← hgroup]
    exact ⟨hcurve', hgroup'⟩

theorem toGroup_timesPow2 (c : Nat) : toGroup (timesPow2 c A) = 2 ^ c • toGroup A := by
  induction c with
  | zero => rw [timesPow2_zero, pow_zero, one_nsmul]
  | succ c ih =>
    obtain ⟨-, hgroup⟩ := dbl_spec (onCurve_timesPow2 hA c)
    rw [timesPow2_succ_eq_dbl, hgroup, ih, pow_succ, mul_two, add_nsmul]

end

/-- 41_point.md R133: c doublings are the 2^c-fold sum. -/
theorem timesPow2_eq_kFold {A : Point} (hA : onCurve A = true) (c : Nat) : timesPow2 c A = kFold (2 ^ c) A := by
  have : Fact (Nat.Prime Config.p) := ⟨prime_p⟩
  obtain ⟨hcurve, hgroup⟩ := kFold_spec hA (2 ^ c)
  exact toGroup_injective (onCurve_timesPow2 hA c) hcurve ((toGroup_timesPow2 hA c).trans hgroup.symm)

end Sys2Proof.Laws
end

section
/-! PROOFS. The commands of 41_point.md. First how a command ends that writes a point register with Z, or a value
register from a point; then the obligations. -/

namespace Sys2Proof.Machine

open Sys2Proof.Laws

/-! ## A point command that succeeds -/

theorem FrameBut.writeP {k : Writes} {s t : State} (h : FrameBut k s t) {pd : PReg} (hpd : pd ∈ k.p) (A : Point) :
    FrameBut k s (t.writeP pd A) :=
  { h with
    v := h.v
    p := fun i hi => (readP_writeP_other t (ne_of_mem_of_not_mem hpd hi).symm A).trans (h.p i hi) }

section
variable {i : Instr} {s : State}

/-- A command that writes P[RD] and Z. -/
theorem completes_point {pd : PReg} {R : Point} {z : Bool} (hruns : exec i s = succeed ((s.writeP pd R).setZ z))
    (hw : writes i = { p := [pd], z := true }) : ∃ t, Completes i s t ∧ t.readP pd = R ∧ t.flagZ = z := by
  have hpd : pd ∈ (writes i).p := by rw [hw]; exact List.mem_singleton_self pd
  have hz : (writes i).z = true := by rw [hw]
  exact ⟨_, completes_of_succeed hruns (((FrameBut.refl _ s).writeP hpd R).setZ hz z) rfl rfl,
    readP_writeP_same s pd R, rfl⟩

/-- A command that writes a point to P[RD] and sets Z by it. -/
theorem completes_finishPoint {pd : PReg} {R : Point} (hruns : exec i s = finishPoint pd R s)
    (hw : writes i = { p := [pd], z := true }) :
    ∃ t, Completes i s t ∧ t.readP pd = R ∧ t.flagZ = decide (t.readP pd = .infinity) := by
  obtain ⟨t, ht, hread, hz⟩ := completes_point hruns hw
  exact ⟨t, ht, hread, hread ▸ hz⟩

/-- A command that writes a number that fits V[RD] and no flag. -/
theorem completes_load_number {vd : VReg} {k : Nat} (hruns : exec i s = succeed (s.writeV vd (word256 k)))
    (hw : writes i = { v := [vd] }) (hk : k < 2 ^ 256) : ∃ t, Completes i s t ∧ t.valueV vd = k := by
  obtain ⟨t, ht, hread⟩ := completes_load hruns hw
  exact ⟨t, ht, by rw [State.valueV, hread, toNat_word256 hk]⟩

end

/-! ## Loads and stores -/

theorem exec_pld_of_lt {pd : PReg} {va vb : VReg} {s : State} (hx : s.valueV va < Config.p)
    (hy : s.valueV vb < Config.p) :
    exec (.pld pd va vb) s = if curveEq (s.valueV va) (s.valueV vb)
      then succeed ((s.writeP pd (.affine (s.valueV va) (s.valueV vb))).setZ false) else raiseError .notOnCurve s := by
  rw [exec, execPld, withBelow_two_of_lt hx hy]

theorem exec_pld_of_le {pd : PReg} {va vb : VReg} {s : State}
    (h : Config.p ≤ s.valueV va ∨ Config.p ≤ s.valueV vb) :
    exec (.pld pd va vb) s = .next (failed s .operandRange) := by
  rw [exec, execPld, withBelow_two_of_le h]

/-- Settles O21: both coordinates are checked against p; then the curve equation decides between the point and the
error. -/
theorem pldLoadsCheckedPoints : Obligations.PldLoadsCheckedPoints := by
  intro pd va vb s
  refine ⟨encodes_pld va vb pd, fun hx hy hcurve => ?_, exec_pld_of_le, fun hx hy hcurve => ?_⟩
  · exact completes_point ((exec_pld_of_lt hx hy).trans (if_pos ((curveEq_iff_mod _ _).mpr hcurve))) rfl
  · exact (exec_pld_of_lt hx hy).trans (if_neg fun h => hcurve ((curveEq_iff_mod _ _).mp h))

/-- Settles O22: both commands write a fixed point with a fixed Z. -/
theorem pinfPgenLoad : Obligations.PinfPgenLoad := by
  intro pd s
  exact ⟨⟨encodes_pinf pd, completes_point rfl rfl⟩, ⟨encodes_pgen pd, completes_point rfl rfl⟩⟩

section
variable (vd : VReg) {pa : PReg} {s : State}

theorem exec_px_of_affine {x y : Nat} (h : s.readP pa = .affine x y) :
    exec (.px vd pa) s = succeed (s.writeV vd (word256 x)) := by
  rw [exec, execPx, h]

theorem exec_py_of_affine {x y : Nat} (h : s.readP pa = .affine x y) :
    exec (.py vd pa) s = succeed (s.writeV vd (word256 y)) := by
  rw [exec, execPy, h]

theorem exec_px_of_infinity (h : s.readP pa = .infinity) :
    exec (.px vd pa) s = .next (failed s .pointAtInfinity) := by
  rw [exec, execPx, h]
  rfl

theorem exec_py_of_infinity (h : s.readP pa = .infinity) :
    exec (.py vd pa) s = .next (failed s .pointAtInfinity) := by
  rw [exec, execPy, h]
  rfl

end

/-- Settles O23: a coordinate below p fits a value register, so what is read back is the coordinate. -/
theorem pxPyStoreCoordinates : Obligations.PxPyStoreCoordinates := by
  intro vd pa s
  refine ⟨encodes_px vd pa, encodes_py vd pa, fun x y h hx hy => ⟨?_, ?_⟩,
    fun h => ⟨exec_px_of_infinity vd h, exec_py_of_infinity vd h⟩⟩
  · exact completes_load_number (exec_px_of_affine vd h) rfl (hx.trans p_lt)
  · exact completes_load_number (exec_py_of_affine vd h) rfl (hy.trans p_lt)

/-! ## Point arithmetic -/

/-- Settles O24: the sum the command writes meets the equations of the group law (isSum_addE). -/
theorem paddAdds : Obligations.PaddAdds := by
  intro pd pa pb s
  refine ⟨encodes_padd pd pa pb, fun hA hB => ?_⟩
  obtain ⟨t, ht, hread, hz⟩ := completes_finishPoint (i := .padd pd pa pb) (s := s) rfl rfl
  exact ⟨t, ht, hread ▸ isSum_addE hA hB, hz⟩

/-- Settles O25: the double the command writes meets the equations of the group law (isDouble_dbl). -/
theorem pdblDoubles : Obligations.PdblDoubles := by
  intro pd pa s
  refine ⟨encodes_pdbl pd pa, fun hA => ?_⟩
  obtain ⟨t, ht, hread, hz⟩ := completes_finishPoint (i := .pdbl pd pa) (s := s) rfl rfl
  exact ⟨t, ht, hread ▸ isDouble_dbl hA, hz⟩

/-- 41_point.md R130: PDBL to a register that PADD does not read as RB, then PADD, writes 2A + B. -/
theorem pdbl_then_padd (pd pa pb q : PReg) (s : State) (hq : q ≠ pb) :
    ∃ u v, exec (.pdbl q pa) s = .next u ∧ exec (.padd pd q pb) u = .next v ∧
      v.readP pd = twicePlus (s.readP pa) (s.readP pb) := by
  obtain ⟨u, hu, hdouble, -⟩ := completes_finishPoint (i := .pdbl q pa) (s := s) rfl rfl
  obtain ⟨v, hv, hsum, -⟩ := completes_finishPoint (i := .padd pd q pb) (s := u) rfl rfl
  have hkept : u.readP pb = s.readP pb := hu.frame.p pb (mt List.mem_singleton.mp hq.symm)
  exact ⟨u, v, hu.runs, hv.runs, by rw [hsum, hdouble, hkept, twicePlus]⟩

/-- Settles O26: the result is the sum of the double, which is on the curve, and B; so is the result of the two
commands. -/
theorem ptplDoublesThenAdds : Obligations.PtplDoublesThenAdds := by
  intro pd pa pb s
  refine ⟨encodes_ptpl pd pa pb, fun hA hB => ?_⟩
  obtain ⟨t, ht, hread, hz⟩ := completes_finishPoint (i := .ptpl pd pa pb) (s := s) rfl rfl
  refine ⟨t, _, ht, isDouble_dbl hA, hread ▸ isSum_addE (onCurve_dbl hA) hB, hz, fun q hq => ?_⟩
  rw [hread]
  exact pdbl_then_padd pd pa pb q s hq

/-- Settles O27: negation keeps O, and replaces y by its residue -y. -/
theorem pnegNegates : Obligations.PnegNegates := by
  intro pd pa s
  obtain ⟨t, ht, hread, hz⟩ := completes_finishPoint (i := .pneg pd pa) (s := s) rfl rfl
  refine ⟨encodes_pneg pd pa, fun h => ?_, fun x y h hy => ?_⟩
  · rw [h, negE] at hread
    exact ⟨t, ht, hread, hz.trans (decide_eq_true hread)⟩
  · rw [h, negE, modP_neg hy] at hread
    exact ⟨t, ht, hread, hz.trans (decide_eq_false (hread ▸ nofun))⟩

/-- Settles O28: the command writes the point it reads. -/
theorem pnormCopies : Obligations.PnormCopies := by
  intro pd pa s
  exact ⟨encodes_pnorm pd pa, completes_point rfl rfl⟩

/-- Settles O29: the chain is the command's own doublings of the operand, which are on the curve, and the group law
makes c of them the 2^c-fold sum. -/
theorem ppow2Doubles : Obligations.Ppow2Doubles := by
  intro pd pa count s hcount
  refine ⟨encodes_ppow2 pd pa hcount, fun hA => ?_⟩
  obtain ⟨t, ht, hread, hz⟩ := completes_finishPoint (i := .ppow2 pd pa count) (s := s) rfl rfl
  have hstep (k : Nat) (_ : k < count) : isDouble (timesPow2 k (s.readP pa)) (timesPow2 (k + 1) (s.readP pa)) := by
    rw [timesPow2_succ_eq_dbl]
    exact isDouble_dbl (onCurve_timesPow2 hA k)
  exact ⟨t, fun k => timesPow2 k (s.readP pa), ht, rfl, hstep, hread, hread.trans (timesPow2_eq_kFold hA count), hz,
    hread ▸ timesPow2_eq_infinity hA count⟩

/-- Settles O30: equality of points is equality of their values; the command writes no register. -/
theorem peqCompares : Obligations.PeqCompares := by
  intro pa pb s
  have hframe := (FrameBut.refl (writes (.peq pa pb)) s).setCompare rfl (decide (s.readP pa = s.readP pb)) false
  exact ⟨encodes_peq pa pb, _, completes_of_succeed rfl hframe rfl rfl, rfl, rfl⟩

end Sys2Proof.Machine
end

section
/-! PROOFS. The four algorithms of 42_scalar_mult.md R142 to R146. Each loop keeps its point at a known multiple of A in
the curve's group; the multiple it ends with is k, so all four give [k]A. -/

namespace Sys2Proof.Laws

open Sys2Proof.Machine

/-! ## Integers in signed binary digits (42_scalar_mult.md R143) -/

/-- The integer whose digits, most significant first, are those of v and then d. -/
def appendDigit (v : Int) (d : Digit) : Int := 2 * v + digitValue d

theorem foldl_appendDigit_reverse (ds : List Digit) : ds.reverse.foldl appendDigit 0 = digitsValue ds := by
  rw [List.foldl_reverse]
  induction ds with
  | nil => rfl
  | cons d ds ih => rw [List.foldr_cons, ih, appendDigit, digitsValue, add_comm]

/-- The recoding keeps the value while the digits left can hold it: k = 2^fuel - 1 needs one digit more than it has
bits. -/
theorem digitsValue_nafLoop {fuel k : Nat} (hk : 2 * k ≤ 2 ^ fuel) : digitsValue (nafLoop fuel k) = k := by
  induction fuel generalizing k with
  | zero =>
    obtain rfl : k = 0 := by omega
    rfl
  | succ fuel ih =>
    have hle : k ≤ 2 ^ fuel := by omega
    rw [nafLoop]
    split_ifs with h0 h1 h3
    · rw [h0]
      rfl
    · rw [digitsValue, ih (by omega), digitValue]
      omega
    · have hlt : k < 2 ^ fuel := by -- k is odd and at least 3, and 2^fuel is 1 or even
        cases fuel with
        | zero => omega
        | succ fuel => omega
      rw [digitsValue, ih (by omega), digitValue]
      omega
    · rw [digitsValue, ih (by omega), digitValue]
      omega

theorem digitsValue_naf (k : Nat) : digitsValue (naf k) = k := by
  have hlt := lt_pow_bitLength k
  exact digitsValue_nafLoop (by omega)

/-! ## Runs of zero digits (42_scalar_mult.md R143) -/

theorem foldl_appendDigit_takeZeros (ds : List Digit) (v : Int) :
    (takeZeros ds).2.foldl appendDigit (2 ^ (takeZeros ds).1 * v) = ds.foldl appendDigit v := by
  fun_induction takeZeros ds generalizing v with
  | case1 ds ih =>
    rw [List.foldl_cons, ← ih, appendDigit, digitValue, add_zero, pow_succ, mul_assoc]
  | case2 ds => rw [pow_zero, one_mul]

theorem length_takeZeros_le (ds : List Digit) : (takeZeros ds).2.length ≤ ds.length := by
  fun_induction takeZeros ds with
  | case1 ds ih => exact ih.trans (Nat.le_succ _)
  | case2 ds => exact le_rfl

theorem head?_takeZeros_ne_zero (ds : List Digit) : (takeZeros ds).2.head? ≠ some .zero := by
  fun_induction takeZeros ds with
  | case1 ds ih => exact ih
  | case2 ds hhead =>
    cases ds with
    | nil => nofun
    | cons d ds =>
      rintro ⟨⟩
      exact hhead ds rfl

/-! ## The lowest set bit (42_scalar_mult.md R146) -/

theorem lowestSetBitLoop_spec {fuel k : Nat} (h0 : k ≠ 0) (hk : k < 2 ^ fuel) :
    lowestSetBitLoop fuel k < fuel ∧
      2 ^ lowestSetBitLoop fuel k * (2 * (k / 2 ^ (lowestSetBitLoop fuel k + 1)) + 1) = k := by
  induction fuel generalizing k with
  | zero => omega
  | succ fuel ih =>
    rw [lowestSetBitLoop]
    split_ifs with hodd
    · rw [pow_zero, zero_add, pow_one]
      omega
    · obtain ⟨hlt, heq⟩ := ih (k := k / 2) (by omega) (by omega)
      rw [Nat.div_div_eq_div_mul, ← pow_succ'] at heq
      refine ⟨by omega, ?_⟩
      rw [pow_succ', mul_assoc, heq]
      omega

theorem lowestSetBit_spec {k : Nat} (h0 : k ≠ 0) : lowestSetBit k < bitLength k ∧
    2 ^ lowestSetBit k * (2 * (k / 2 ^ (lowestSetBit k + 1)) + 1) = k :=
  lowestSetBitLoop_spec h0 (lt_pow_bitLength k)

/-! ## The quotients of k that the loops run through -/

/-- Where the loops start: k has no bit from t on. -/
theorem quotient_bitLength (k : Nat) : k / 2 ^ bitLength k = 0 :=
  Nat.div_eq_of_lt (lt_pow_bitLength k)

theorem quotient_of_testBit {k i : Nat} (h : k.testBit i = true) :
    ((k / 2 ^ i : Nat) : Int) = 2 * (k / 2 ^ (i + 1) : Nat) + 1 := by
  rw [quotient_step, h]
  rfl

theorem quotient_of_not_testBit {k i : Nat} (h : k.testBit i = false) :
    ((k / 2 ^ i : Nat) : Int) = 2 * (k / 2 ^ (i + 1) : Nat) := by
  rw [quotient_step, h]
  rfl

/-! ## Multiples of A -/

section
variable [Fact (Nat.Prime Config.p)]

/-- R is on the curve, and is z times A in the curve's group. -/
structure IsMultiple (A : Point) (z : Int) (R : Point) : Prop where
  curve : onCurve R = true
  group : toGroup R = z • toGroup A

variable {A R S : Point} {v w : Int}

theorem isMultiple_zero : IsMultiple A 0 .infinity :=
  ⟨rfl, (zero_zsmul _).symm⟩

theorem isMultiple_one (hA : onCurve A = true) : IsMultiple A 1 A :=
  ⟨hA, (one_zsmul _).symm⟩

theorem IsMultiple.addE (hR : IsMultiple A v R) (hS : IsMultiple A w S) : IsMultiple A (v + w) (addE R S) := by
  obtain ⟨hcurve, hgroup⟩ := addE_spec hR.curve hS.curve
  exact ⟨hcurve, by rw [hgroup, hR.group, hS.group, add_zsmul]⟩

theorem IsMultiple.dbl (hR : IsMultiple A v R) : IsMultiple A (2 * v) (dbl R) := by
  obtain ⟨hcurve, hgroup⟩ := dbl_spec hR.curve
  exact ⟨hcurve, by rw [hgroup, hR.group, two_mul, add_zsmul]⟩

theorem IsMultiple.negE (hR : IsMultiple A v R) : IsMultiple A (-v) (negE R) := by
  obtain ⟨hcurve, hgroup⟩ := negE_spec hR.curve
  exact ⟨hcurve, by rw [hgroup, hR.group, neg_zsmul]⟩

theorem IsMultiple.twicePlus (hR : IsMultiple A v R) (hS : IsMultiple A w S) :
    IsMultiple A (2 * v + w) (twicePlus R S) :=
  hR.dbl.addE hS

theorem IsMultiple.timesPow2 (hR : IsMultiple A v R) (c : Nat) : IsMultiple A (2 ^ c * v) (timesPow2 c R) := by
  induction c with
  | zero => rwa [pow_zero, one_mul, timesPow2_zero]
  | succ c ih =>
    rw [pow_succ', mul_assoc, timesPow2_succ_eq_dbl]
    exact ih.dbl

/-- The point that NAF and ZSD add, by the sign of the digit. -/
theorem isMultiple_sign (hA : onCurve A = true) (c : Prop) [Decidable c] :
    IsMultiple A (if c then 1 else -1) (if c then A else negE A) := by
  split
  · exact isMultiple_one hA
  · exact (isMultiple_one hA).negE

/-- 00_scope.md R15: the only k-fold sum is [k]A. -/
theorem IsMultiple.eq_kFold {k : Nat} (hA : onCurve A = true) (hR : IsMultiple A k R) : R = kFold k A := by
  obtain ⟨hcurve, hgroup⟩ := kFold_spec hA k
  exact toGroup_injective hR.curve hcurve (by rw [hR.group, hgroup, natCast_zsmul])

/-! ## REF (42_scalar_mult.md R142) -/

theorem isMultiple_refLoop (hA : onCurve A = true) {k i : Nat} (hR : IsMultiple A (k / 2 ^ i : Nat) R) :
    IsMultiple A k (refLoop A k i R) := by
  induction i generalizing R with
  | zero => simpa [refLoop] using hR
  | succ i ih =>
    apply ih
    cases hbit : k.testBit i with
    | false =>
      rw [quotient_of_not_testBit hbit]
      exact hR.dbl
    | true =>
      rw [quotient_of_testBit hbit]
      exact hR.dbl.addE (isMultiple_one hA)

theorem isMultiple_mulRef (hA : onCurve A = true) (k : Nat) : IsMultiple A k (mulRef k A) := by
  apply isMultiple_refLoop hA
  rw [quotient_bitLength]
  exact isMultiple_zero

/-! ## NAF (42_scalar_mult.md R144) -/

/-- One run is its digit and the zero digits below it. -/
theorem isMultiple_nafRun (hA : onCurve A = true) {d : Digit} (hd : d ≠ .zero) (z : Nat) (hR : IsMultiple A v R) :
    IsMultiple A (2 ^ z * appendDigit v d) (nafRun A R (d, z)) := by
  have hsign : digitValue d = if d = .plus then 1 else -1 := by
    cases d with
    | zero => exact absurd rfl hd
    | minus => rfl
    | plus => rfl
  rw [appendDigit, hsign]
  exact (hR.twicePlus (isMultiple_sign hA _)).timesPow2 z

/-- Zero digits at the head belong to no run, so there may be some only while R is O. -/
theorem isMultiple_foldl_nafRun (hA : onCurve A = true) {fuel : Nat} {ds : List Digit} (hfuel : ds.length ≤ fuel)
    (hhead : v = 0 ∨ ds.head? ≠ some .zero) (hR : IsMultiple A v R) :
    IsMultiple A (ds.foldl appendDigit v) ((runsLoop fuel ds).foldl (nafRun A) R) := by
  fun_induction runsLoop fuel ds generalizing v R with
  | case1 ds =>
    rw [List.eq_nil_of_length_eq_zero (Nat.le_zero.mp hfuel)]
    exact hR
  | case2 fuel => exact hR
  | case3 fuel ds ih =>
    obtain rfl : v = 0 := hhead.resolve_right (by simp)
    exact ih (Nat.le_of_succ_le_succ hfuel) (.inl rfl) hR
  | case4 fuel d ds hd ih =>
    rw [List.foldl_cons, List.foldl_cons, ← foldl_appendDigit_takeZeros]
    exact ih ((length_takeZeros_le ds).trans (Nat.le_of_succ_le_succ hfuel)) (.inr (head?_takeZeros_ne_zero ds))
      (isMultiple_nafRun hA hd _ hR)

theorem isMultiple_mulNaf (hA : onCurve A = true) (k : Nat) : IsMultiple A k (mulNaf k A) := by
  have hnaf := isMultiple_foldl_nafRun hA (List.length_reverse (as := naf k)).le (.inl rfl) isMultiple_zero
  rwa [foldl_appendDigit_reverse, digitsValue_naf] at hnaf

/-! ## LADDER (42_scalar_mult.md R145) -/

/-- The ladder's second point stays one A ahead of its first. -/
theorem isMultiple_ladderLoop {k i : Nat} (hR : IsMultiple A (k / 2 ^ i : Nat) R)
    (hS : IsMultiple A ((k / 2 ^ i : Nat) + 1) S) : IsMultiple A k (ladderLoop k i R S) := by
  induction i generalizing R S with
  | zero => simpa [ladderLoop] using hR
  | succ i ih =>
    rw [ladderLoop]
    cases hbit : k.testBit i with
    | false =>
      apply ih <;> rw [quotient_of_not_testBit hbit]
      · exact hR.dbl
      · convert hS.addE hR using 1
        ring
    | true =>
      apply ih <;> rw [quotient_of_testBit hbit]
      · convert hR.addE hS using 1
        ring
      · convert hS.dbl using 1
        ring

theorem isMultiple_mulLadder (hA : onCurve A = true) (k : Nat) : IsMultiple A k (mulLadder k A) := by
  apply isMultiple_ladderLoop
  · rw [quotient_bitLength]
    exact isMultiple_zero
  · rw [quotient_bitLength]
    exact isMultiple_one hA

/-! ## ZSD (42_scalar_mult.md R146) -/

/-- Before the bits from s + j down, R is the odd number 2 (k / 2^(s + 1 + j)) + 1 times A. -/
theorem isMultiple_zsdLoop (hA : onCurve A = true) {k s j : Nat}
    (hR : IsMultiple A (2 * (k / 2 ^ (s + 1 + j) : Nat) + 1) R) :
    IsMultiple A (2 * (k / 2 ^ (s + 1) : Nat) + 1) (zsdLoop A k s j R) := by
  induction j generalizing R with
  | zero => exact hR
  | succ j ih =>
    have hnext := hR.twicePlus (isMultiple_sign hA (k.testBit (s + 1 + j) = true))
    apply ih
    convert hnext using 1
    cases hbit : k.testBit (s + 1 + j) with
    | false =>
      rw [quotient_of_not_testBit hbit, if_neg Bool.false_ne_true, add_assoc _ j]
      ring
    | true =>
      rw [quotient_of_testBit hbit, if_pos rfl, add_assoc _ j]

theorem isMultiple_mulZsd (hA : onCurve A = true) (k : Nat) : IsMultiple A k (mulZsd k A) := by
  rw [mulZsd]
  split
  next h0 =>
    rw [h0]
    exact isMultiple_zero
  next h0 =>
    obtain ⟨hlt, hk⟩ := lowestSetBit_spec h0
    have hloop : IsMultiple A (2 * (k / 2 ^ (lowestSetBit k + 1) : Nat) + 1)
        (zsdLoop A k (lowestSetBit k) (bitLength k - (lowestSetBit k + 1)) A) := by
      apply isMultiple_zsdLoop hA
      rw [Nat.add_sub_of_le hlt, quotient_bitLength]
      exact isMultiple_one hA
    convert hloop.timesPow2 (lowestSetBit k) using 1
    exact_mod_cast hk.symm

end

/-- Settles O32: each algorithm's result is k times A in the curve's group, and [k]A is the only such point. -/
theorem fourMultipliersAgree : Obligations.FourMultipliersAgree := by
  intro k A _ hA
  have : Fact (Nat.Prime Config.p) := ⟨prime_p⟩
  exact ⟨(isMultiple_mulRef hA k).eq_kFold hA, (isMultiple_mulNaf hA k).eq_kFold hA,
    (isMultiple_mulLadder hA k).eq_kFold hA, (isMultiple_mulZsd hA k).eq_kFold hA⟩

end Sys2Proof.Laws
end

section
/-! PROOFS. The DER codec of 43_der.md over byte lists: the minimal big-endian bytes of a number, the content DENC makes
of them, and what the decoder accepts, said once per function as an equivalence; from them, that decoding an encoding
gives back the two values. -/

namespace Sys2Proof.Machine

/-! ## Big-endian bytes (00_scope.md R12) -/

theorem toNat_byte {k : Nat} (h : k < 256) : (byte k).toNat = k :=
  Nat.mod_eq_of_lt h

theorem beValue_concat (c : List Byte) (b : Byte) : beValue (c ++ [b]) = beValue c * 256 + b.toNat := by
  rw [beValue, List.foldl_append]
  rfl

theorem beValue_zero_cons (c : List Byte) : beValue (0x00#8 :: c) = beValue c := rfl

theorem beMinLoop_zero (fuel : Nat) (acc : List Byte) : beMinLoop fuel 0 acc = acc := by
  cases fuel <;> rfl

theorem beMinLoop_eq_append (fuel v : Nat) (acc : List Byte) :
    beMinLoop fuel v acc = beMinLoop fuel v [] ++ acc := by
  induction fuel generalizing v acc with
  | zero => rfl
  | succ fuel ih =>
    rw [beMinLoop, beMinLoop]
    split
    · rfl
    · rw [ih _ (_ :: acc), ih _ [_], List.append_assoc]
      rfl

theorem beMinLoop_succ {v : Nat} (fuel : Nat) (hv : v ≠ 0) :
    beMinLoop (fuel + 1) v [] = beMinLoop fuel (v / 256) [] ++ [byte (v % 256)] := by
  rw [beMinLoop, if_neg hv, beMinLoop_eq_append]

theorem length_beMinLoop_le (fuel v : Nat) : (beMinLoop fuel v []).length ≤ fuel := by
  induction fuel generalizing v with
  | zero => exact Nat.le_refl 0
  | succ fuel ih =>
    rcases eq_or_ne v 0 with rfl | hv
    · simp [beMinLoop_zero]
    · rw [beMinLoop_succ fuel hv, List.length_append]
      exact Nat.succ_le_succ (ih _)

theorem div_256_lt_pow {fuel v : Nat} (hlt : v < 256 ^ (fuel + 1)) : v / 256 < 256 ^ fuel :=
  Nat.div_lt_of_lt_mul (by rwa [← pow_succ'])

theorem beValue_beMinLoop {fuel v : Nat} (hlt : v < 256 ^ fuel) : beValue (beMinLoop fuel v []) = v := by
  induction fuel generalizing v with
  | zero =>
    have h0 : v = 0 := by simpa using hlt
    rw [h0]
    rfl
  | succ fuel ih =>
    rcases eq_or_ne v 0 with rfl | hv
    · rfl
    · rw [beMinLoop_succ fuel hv, beValue_concat, ih (div_256_lt_pow hlt), toNat_byte (Nat.mod_lt v (by decide))]
      omega

/-- No leading zero byte. -/
theorem beMinLoop_eq_cons {fuel v : Nat} (hv : v ≠ 0) (hlt : v < 256 ^ fuel) :
    ∃ b bs, beMinLoop fuel v [] = b :: bs ∧ b ≠ 0 := by
  induction fuel generalizing v with
  | zero => exact absurd (by simpa using hlt) hv
  | succ fuel ih =>
    rw [beMinLoop_succ fuel hv]
    rcases eq_or_ne (v / 256) 0 with h0 | hq
    · refine ⟨byte (v % 256), [], by rw [h0, beMinLoop_zero, List.nil_append], fun hb => ?_⟩
      have hbyte := toNat_byte (Nat.mod_lt v (show 0 < 256 by decide))
      have hrem : v % 256 = 0 := by rw [← hbyte, hb]; rfl
      omega
    · obtain ⟨b, bs, heq, hb⟩ := ih hq (div_256_lt_pow hlt)
      exact ⟨b, bs ++ [byte (v % 256)], by rw [heq, List.cons_append], hb⟩

/-! ## The content of a DER integer (43_der.md R150) -/

/-- The bytes before R150's sign rule: a leading zero byte stands only alone. -/
theorem magnitude_spec {v : Nat} (hlt : v < 2 ^ 256) :
    ∃ b bs, (if v = 0 then [0x00#8] else beMin v) = b :: bs ∧ (b = 0 → bs = []) ∧ bs.length ≤ 31 ∧
      beValue (b :: bs) = v := by
  have hlt' : v < 256 ^ 32 := by rwa [show 256 ^ 32 = 2 ^ 256 by decide]
  split
  next h0 => exact ⟨0x00#8, [], rfl, fun _ => rfl, Nat.zero_le 31, h0.symm⟩
  next hv =>
    obtain ⟨b, bs, heq, hb⟩ := beMinLoop_eq_cons hv hlt'
    have hlen := length_beMinLoop_le 32 v
    rw [heq] at hlen
    exact ⟨b, bs, heq, fun h => absurd h hb, Nat.le_of_succ_le_succ hlen, heq ▸ beValue_beMinLoop hlt'⟩

theorem derContent_spec {v : Nat} (hlt : v < 2 ^ 256) :
    isDerContent (derContent v) ∧ (derContent v).length ≤ 33 ∧ beValue (derContent v) = v := by
  obtain ⟨b, bs, heq, hzero, hlen, hvalue⟩ := magnitude_spec hlt
  simp only [derContent, heq, List.headD_cons]
  split_ifs with hsign
  · rw [← beValue_zero_cons] at hvalue
    have hminimal : ¬(2 ≤ (0x00#8 :: b :: bs).length ∧ (0x00#8 :: b :: bs).headD 0 = 0x00#8 ∧ b.toNat < 0x80) :=
      fun ⟨_, _, hsmall⟩ => absurd hsign (Nat.not_le_of_lt hsmall)
    exact ⟨⟨List.cons_ne_nil _ _, hvalue ▸ hlt, Nat.zero_lt_succ _, hminimal⟩,
      by simp only [List.length_cons]; omega, hvalue⟩
  · have hminimal : ¬(2 ≤ (b :: bs).length ∧ b = 0x00#8 ∧ ((b :: bs).getD 1 0).toNat < 0x80) := by
      rintro ⟨htwo, hhead, -⟩
      rw [hzero hhead] at htwo
      exact Nat.not_lt_of_le htwo (Nat.lt_succ_self 1)
    exact ⟨⟨List.cons_ne_nil _ _, hvalue ▸ hlt, Nat.lt_of_not_le hsign, hminimal⟩,
      by simp only [List.length_cons]; omega, hvalue⟩

theorem length_derContent_pos {v : Nat} (hlt : v < 2 ^ 256) : 1 ≤ (derContent v).length := by
  obtain ⟨⟨hne, _⟩, _⟩ := derContent_spec hlt
  exact List.length_pos_iff.mpr hne

/-- Settles O34: the content is der_int's own. -/
theorem derIntegerIsMinimal : Obligations.DerIntegerIsMinimal := by
  intro v hlt
  obtain ⟨hcontent, hlen, hvalue⟩ := derContent_spec hlt
  exact ⟨derContent v, rfl, length_derContent_pos hlt, hlen, hvalue, hcontent⟩

theorem length_derInt (v : Nat) : (derInt v).length = (derContent v).length + 2 := rfl

theorem length_derEncode (r k : Nat) : (derEncode r k).length = (derInt r ++ derInt k).length + 2 := rfl

/-- 43_der.md R151: 8 to 72 bytes. -/
theorem length_derEncode_bounds {r k : Nat} (hr : r < 2 ^ 256) (hk : k < 2 ^ 256) :
    8 ≤ (derEncode r k).length ∧ (derEncode r k).length ≤ 72 := by
  have hr1 := length_derContent_pos hr
  have hk1 := length_derContent_pos hk
  obtain ⟨-, hr33, -⟩ := derContent_spec hr
  obtain ⟨-, hk33, -⟩ := derContent_spec hk
  rw [length_derEncode, List.length_append, length_derInt, length_derInt]
  omega

/-! ## What the decoder accepts (43_der.md R152) -/

theorem derLen_short {k : Nat} (hk : k < 0x80) (rest : List Byte) : derLen (byte k :: rest) = .ok (k, rest) := by
  have hbyte : (byte k).toNat = k := toNat_byte (by omega)
  rw [derLen, derNext]
  dsimp only
  rw [hbyte, if_pos hk]

theorem derContentValue_eq_ok_iff {c : List Byte} (hc : c ≠ []) {v : Nat} :
    derContentValue c = .ok v ↔ isDerContent c ∧ c.length ≤ 33 ∧ beValue c = v := by
  rw [derContentValue, isDerContent]
  split_ifs with hsign hzero hlong hbig
  · exact iff_of_false nofun fun ⟨⟨_, _, hhead, _⟩, _⟩ => absurd hsign (Nat.not_le_of_lt hhead)
  · exact iff_of_false nofun fun ⟨⟨_, _, _, hminimal⟩, _⟩ => hminimal hzero
  · exact iff_of_false nofun fun ⟨_, hlen, _⟩ => absurd hlong (Nat.not_lt_of_le hlen)
  · exact iff_of_false nofun fun ⟨⟨_, hvalue, _⟩, _⟩ => absurd hbig (Nat.not_le_of_lt hvalue)
  · rw [Except.ok.injEq]
    exact ⟨fun h => ⟨⟨hc, Nat.lt_of_not_le hbig, Nat.lt_of_not_le hsign, hzero⟩, Nat.le_of_not_lt hlong, h⟩,
      fun ⟨_, _, h⟩ => h⟩

theorem derNext_eq_ok_iff {bs rest : List Byte} {b : Byte} : derNext bs = .ok (b, rest) ↔ bs = b :: rest := by
  cases bs <;> simp [derNext]

/-- What der_int_dec consumes: the tag, a length, and that many content bytes. -/
theorem derIntDec_eq_ok_iff {bs rest : List Byte} {v : Nat} :
    derIntDec bs = .ok (v, rest) ↔ ∃ afterTag len body, bs = 0x02#8 :: afterTag ∧ derLen afterTag = .ok (len, body) ∧
      len ≠ 0 ∧ len ≤ body.length ∧ derContentValue (body.take len) = .ok v ∧ body.drop len = rest := by
  constructor
  · intro h
    rw [derIntDec] at h
    split at h
    · contradiction
    rename_i tag afterTag hnext
    split at h
    · contradiction
    rename_i htag
    split at h
    · contradiction
    rename_i len body hlen
    split at h
    · contradiction
    rename_i hfits
    split at h
    · contradiction
    rename_i value hvalue
    obtain ⟨rfl, rfl⟩ := Prod.mk.inj (Except.ok.inj h)
    rw [derNext_eq_ok_iff, not_not.mp htag] at hnext
    exact ⟨afterTag, len, body, hnext, hlen, by omega, by omega, hvalue, rfl⟩
  · rintro ⟨afterTag, len, body, rfl, hlen, hpos, hfits, hvalue, rfl⟩
    simp [derIntDec, derNext, hlen, hpos, hfits, hvalue]

theorem derPair_eq_ok_iff {bs : List Byte} {r k : Nat} :
    derPair bs = .ok (r, k) ↔ ∃ afterR, derIntDec bs = .ok (r, afterR) ∧ derIntDec afterR = .ok (k, []) := by
  constructor
  · intro h
    rw [derPair] at h
    split at h
    · contradiction
    rename_i r' afterR hr
    split at h
    · contradiction
    rename_i k' afterS hk
    split at h
    · rename_i hend
      obtain ⟨rfl, rfl⟩ := Prod.mk.inj (Except.ok.inj h)
      exact ⟨afterR, hr, by rw [hk, hend]⟩
    · contradiction
  · rintro ⟨afterR, hr, hk⟩
    simp [derPair, hr, hk]

/-- What der_dec consumes: the tag, a length that is exact, and two integers with nothing after them. -/
theorem derDecode_eq_ok_iff {b : List Byte} {r k : Nat} :
    derDecode b = .ok (r, k) ↔ ∃ afterTag body afterR, b = 0x30#8 :: afterTag ∧
      derLen afterTag = .ok (body.length, body) ∧ derIntDec body = .ok (r, afterR) ∧ derIntDec afterR = .ok (k, []) := by
  constructor
  · intro h
    rw [derDecode] at h
    split at h
    · contradiction
    rename_i tag afterTag hnext
    split at h
    · contradiction
    rename_i htag
    split at h
    · contradiction
    rename_i len body hlen
    split at h
    · contradiction
    rename_i hexact
    obtain ⟨afterR, hr, hk⟩ := derPair_eq_ok_iff.mp h
    rw [derNext_eq_ok_iff, not_not.mp htag] at hnext
    rw [not_not.mp hexact] at hlen
    exact ⟨afterTag, body, afterR, hnext, hlen, hr, hk⟩
  · rintro ⟨afterTag, body, afterR, rfl, hlen, hr, hk⟩
    simp [derDecode, derNext, hlen, derPair_eq_ok_iff.mpr ⟨afterR, hr, hk⟩]

/-! ## Values and round trip (43_der.md R152, R154) -/

theorem derIntDec_lt {bs rest : List Byte} {v : Nat} (h : derIntDec bs = .ok (v, rest)) : v < 2 ^ 256 := by
  obtain ⟨_, len, body, _, _, hpos, hfits, hvalue, _⟩ := derIntDec_eq_ok_iff.mp h
  have hne : body.take len ≠ [] := List.ne_nil_of_length_pos (by rw [List.length_take]; omega)
  obtain ⟨⟨_, hlt, _⟩, _, rfl⟩ := (derContentValue_eq_ok_iff hne).mp hvalue
  exact hlt

theorem derDecode_lt {b : List Byte} {r k : Nat} (h : derDecode b = .ok (r, k)) : r < 2 ^ 256 ∧ k < 2 ^ 256 := by
  obtain ⟨_, _, _, _, _, hr, hk⟩ := derDecode_eq_ok_iff.mp h
  exact ⟨derIntDec_lt hr, derIntDec_lt hk⟩

/-- der_int_dec reads back one der_int and leaves what follows it. -/
theorem derIntDec_derInt {v : Nat} (hlt : v < 2 ^ 256) (rest : List Byte) :
    derIntDec (derInt v ++ rest) = .ok (v, rest) := by
  obtain ⟨hcontent, hlen, hvalue⟩ := derContent_spec hlt
  have hpos := length_derContent_pos hlt
  refine derIntDec_eq_ok_iff.mpr ⟨_, _, derContent v ++ rest, rfl, derLen_short (by omega) _,
    Nat.ne_of_gt hpos, ?_, ?_, List.drop_left⟩
  · rw [List.length_append]
    exact Nat.le_add_right _ _
  · rw [List.take_left]
    exact (derContentValue_eq_ok_iff (List.ne_nil_of_length_pos hpos)).mpr ⟨hcontent, hlen, hvalue⟩

/-- The encoder's lengths are short, so the decoder reads both of its integers and ends at the last byte. -/
theorem derDecode_derEncode {r k : Nat} (hr : r < 2 ^ 256) (hk : k < 2 ^ 256) :
    derDecode (derEncode r k) = .ok (r, k) := by
  have hlast : derIntDec (derInt k) = .ok (k, []) := by
    rw [← List.append_nil (derInt k), derIntDec_derInt hk]
  have hbody : (derInt r ++ derInt k).length < 0x80 := by
    obtain ⟨-, h72⟩ := length_derEncode_bounds hr hk
    rw [length_derEncode] at h72
    omega
  exact derDecode_eq_ok_iff.mpr ⟨_, _, derInt k, rfl, derLen_short hbody _, derIntDec_derInt hr _, hlast⟩

end Sys2Proof.Machine
end

section
/-! PROOFS. The commands of 43_der.md: DENC's buffer, DDEC's four outcomes, and DDEC of the buffer that DENC wrote. -/

namespace Sys2Proof.Machine

open Sys2Proof.Laws

/-! ## The words of the commands (30_encoding.md R84) -/

theorem encodes_denc (va vb : VReg) : Encodes (.denc va vb) 0x28 0 va vb 0 0 :=
  decode_iff_of_row (WordInItsRow.denc va vb) rfl (opcField_cmdWord ..) rfl (by simp [encode])

theorem encodes_ddec (vd va : VReg) : Encodes (.ddec vd va) 0x29 vd va 0 0 0 :=
  decode_iff_of_row (WordInItsRow.ddec vd va) rfl (opcField_cmdWord ..) rfl (by simp [encode])

/-! ## DENC -/

theorem FrameBut.setDer {k : Writes} {s t : State} (h : FrameBut k s t) (hder : k.der = true) (d : Vector Byte 80)
    (n : BitVec 7) : FrameBut k s { t with dbuf := d, dlen := n } :=
  { h with
    v := h.v
    p := h.p
    dbuf := fun hk => absurd (hder.symm.trans hk) nofun
    dlen := fun hk => absurd (hder.symm.trans hk) nofun }

theorem exec_denc (va vb : VReg) (s : State) :
    exec (.denc va vb) s = succeed (s.writeDer (derEncode (s.valueV va) (s.valueV vb))) := by
  rw [exec, execDenc]

/-- DENC completes with the encoding, at most 72 bytes, in DBUF and its length in DLEN. -/
theorem denc_completes (va vb : VReg) (s : State) :
    ∃ t, Completes (.denc va vb) s t ∧
      t.dlen.toNat = (derEncode (s.valueV va) (s.valueV vb)).length ∧
      t.dbuf = Vector.ofFn fun j => (derEncode (s.valueV va) (s.valueV vb)).getD j.val 0 := by
  obtain ⟨-, h72⟩ := length_derEncode_bounds (valueV_lt s va) (valueV_lt s vb)
  have hframe : FrameBut (writes (.denc va vb)) s (s.writeDer (derEncode (s.valueV va) (s.valueV vb))) := by
    rw [State.writeDer]
    exact (FrameBut.refl _ s).setDer rfl _ _
  refine ⟨_, completes_of_succeed (exec_denc va vb s) hframe (State.writeDer_err s _) (State.writeDer_errcode s _),
    ?_, ?_⟩
  · rw [State.complete_dlen, State.writeDer_dlen, BitVec.toNat_ofNat, Nat.mod_eq_of_lt (by omega)]
  · rw [State.complete_dbuf, State.writeDer_dbuf]

/-- Settles O35: DENC writes der_int's two encodings under their length; past the last byte DBUF holds zeros. -/
theorem dencWritesTheSequence : Obligations.DencWritesTheSequence := by
  intro va vb s
  obtain ⟨h8, h72⟩ := length_derEncode_bounds (valueV_lt s va) (valueV_lt s vb)
  obtain ⟨t, ht, hdlen, hdbuf⟩ := denc_completes va vb s
  refine ⟨encodes_denc va vb, t, derEncode (s.valueV va) (s.valueV vb), ht, rfl, h8, h72, hdlen, fun j => ?_⟩
  rw [hdbuf, Fin.getElem_fin, Vector.getElem_ofFn]
  split
  next => rfl
  next hj => exact List.getD_eq_default _ _ (Nat.le_of_not_lt hj)

/-! ## DDEC -/

section
variable {vd va : VReg} {s : State}

theorem exec_ddec_conflict (h : vd = va) : exec (.ddec vd va) s = .next (failed s .operandConflict) :=
  if_pos h

theorem exec_ddec_tooLong (h : vd ≠ va) (hlen : 80 < s.dlen.toNat) :
    exec (.ddec vd va) s = .next (failed s .derFormat) := by
  rw [exec, execDdec, if_neg h, if_pos hlen, raiseError_eq]

theorem exec_ddec_error (h : vd ≠ va) (hlen : s.dlen.toNat ≤ 80) {c : ErrorCode}
    (hdec : derDecode (s.derBytes s.dlen.toNat) = .error c) : exec (.ddec vd va) s = .next (failed s c) := by
  rw [exec, execDdec, if_neg h, if_neg (Nat.not_lt_of_le hlen), hdec]
  rfl

theorem exec_ddec_ok (h : vd ≠ va) (hlen : s.dlen.toNat ≤ 80) {r k : Nat}
    (hdec : derDecode (s.derBytes s.dlen.toNat) = .ok (r, k)) :
    exec (.ddec vd va) s = succeed ((s.writeV vd (word256 r)).writeV va (word256 k)) := by
  rw [exec, execDdec, if_neg h, if_neg (Nat.not_lt_of_le hlen), hdec]

theorem ddec_completes (h : vd ≠ va) (hlen : s.dlen.toNat ≤ 80) {r k : Nat}
    (hdec : derDecode (s.derBytes s.dlen.toNat) = .ok (r, k)) :
    ∃ t, Completes (.ddec vd va) s t ∧ t.valueV vd = r ∧ t.valueV va = k := by
  obtain ⟨hr, hk⟩ := derDecode_lt hdec
  have hframe := ((FrameBut.refl (writes (.ddec vd va)) s).writeV (List.mem_cons_self ..) (word256 r)).writeV
    (List.mem_cons_of_mem _ (List.mem_singleton_self va)) (word256 k)
  refine ⟨_, completes_of_succeed (exec_ddec_ok h hlen hdec) hframe rfl rfl, ?_, ?_⟩
  · calc ((s.writeV vd (word256 r)).writeV va (word256 k)).valueV vd
        = (s.writeV vd (word256 r)).valueV vd := valueV_eq_of_readV (readV_writeV_other _ h _)
      _ = r := by rw [State.valueV, readV_writeV_same, toNat_word256 hr]
  · exact (congrArg BitVec.toNat (readV_writeV_same _ va _)).trans (toNat_word256 hk)

end

/-- Settles O37: the register conflict, the length bound and the decoder's answer decide in this order. -/
theorem ddecDecodes : Obligations.DdecDecodes := by
  intro vd va s
  exact ⟨encodes_ddec vd va, exec_ddec_conflict, exec_ddec_tooLong, fun h hlen =>
    ⟨fun _ hdec => exec_ddec_error h hlen hdec, fun _ _ hdec => ddec_completes h hlen hdec⟩⟩

/-! ## Round trip (43_der.md R154) -/

/-- A buffer filled from a list gives the list back. -/
theorem derBytes_eq {t : State} {out : List Byte} (hdbuf : t.dbuf = Vector.ofFn fun j => out.getD j.val 0)
    (h : out.length ≤ 80) : t.derBytes out.length = out := by
  have hlen : (t.derBytes out.length).length = out.length := by
    rw [State.derBytes, List.length_take, Vector.length_toList, Nat.min_eq_left h]
  refine List.ext_getElem hlen fun j hj hout => ?_
  simp [State.derBytes, hdbuf, hout]

/-- Settles O39: DDEC reads exactly the bytes DENC wrote, and decoding them gives the two values back. -/
theorem derRoundTrip : Obligations.DerRoundTrip := by
  intro va vb vd ve s hne
  have hr := valueV_lt s va
  have hk := valueV_lt s vb
  obtain ⟨-, h72⟩ := length_derEncode_bounds hr hk
  obtain ⟨t, ht, hdlen, hdbuf⟩ := denc_completes va vb s
  have hdec : derDecode (t.derBytes t.dlen.toNat) = .ok (s.valueV va, s.valueV vb) := by
    rw [hdlen, derBytes_eq hdbuf (by omega), derDecode_derEncode hr hk]
  obtain ⟨u, hu, hvd, hve⟩ := ddec_completes hne (by omega) hdec
  exact ⟨t, u, ht.runs, hu.runs, hu.ended, BitVec.eq_of_toNat_eq hvd, BitVec.eq_of_toNat_eq hve⟩

end Sys2Proof.Machine
end

section
/-! PROOFS. The commands of 44_lows.md: what LOWS writes on each side of HALFN, what SCHK reports, and LOWS and SCHK of
what LOWS wrote. -/

namespace Sys2Proof.Machine

open Sys2Proof.Laws

/-! ## The words of the commands (30_encoding.md R84) -/

theorem encodes_lows (vd va : VReg) : Encodes (.lows vd va) 0x30 vd va 0 0 0 :=
  decode_iff_of_row (WordInItsRow.lows vd va) rfl (opcField_cmdWord ..) rfl (by simp [encode])

theorem encodes_schk (va vb : VReg) : Encodes (.schk va vb) 0x31 0 va vb 0 0 :=
  decode_iff_of_row (WordInItsRow.schk va vb) rfl (opcField_cmdWord ..) rfl (by simp [encode])

/-! ## HALFN and the range of a signature's values -/

/-- HALFN is (n - 1) / 2 (00_scope.md R3), and n is odd. -/
theorem n_eq_two_mul_halfN_add_one : Config.n = 2 * Config.halfN + 1 := rfl

theorem inSignatureRange_eq_true_iff {k : Nat} : inSignatureRange k = true ↔ 1 ≤ k ∧ k ≤ Config.n - 1 := by
  rw [inSignatureRange, Bool.and_eq_true, decide_eq_true_iff, decide_eq_true_iff, Nat.le_sub_one_iff_lt n_pos]

/-! ## What each update keeps -/

theorem FrameBut.setFlip {k : Writes} {s t : State} (h : FrameBut k s t) (hf : k.flip = true) (b : Bool) :
    FrameBut k s (t.setFlip b) :=
  { h with
    v := h.v
    p := h.p
    flagFlip := fun hk => absurd (hf.symm.trans hk) nofun }

theorem FrameBut.setRange {k : Writes} {s t : State} (h : FrameBut k s t) (hr : k.range = true) (sv low : Bool) :
    FrameBut k s (t.setRange sv low) :=
  { h with
    v := h.v
    p := h.p
    flagSv := fun hk => absurd (hr.symm.trans hk) nofun
    flagLow := fun hk => absurd (hr.symm.trans hk) nofun }

/-! ## LOWS -/

section
variable {vd va : VReg} {s : State}

theorem exec_lows_of_le_halfN (h : s.valueV va ≤ Config.halfN) :
    exec (.lows vd va) s = succeed ((s.writeV vd (word256 (s.valueV va))).setFlip false) := by
  have hn := n_eq_two_mul_halfN_add_one
  rw [exec, execLows, withBelow_of_lt (by omega), if_neg (Nat.not_lt_of_le h)]

theorem exec_lows_of_halfN_lt (h : Config.halfN < s.valueV va) (hlt : s.valueV va < Config.n) :
    exec (.lows vd va) s = succeed ((s.writeV vd (word256 (Config.n - s.valueV va))).setFlip true) := by
  rw [exec, execLows, withBelow_of_lt hlt, if_pos h]

theorem exec_lows_of_le (h : Config.n ≤ s.valueV va) :
    exec (.lows vd va) s = .next (failed s .operandRange) := by
  rw [exec, execLows, withBelow_of_le h]

/-- LOWS that succeeds with a 256-bit number for V[RD] and a value for FLIP completes with both. -/
theorem completes_lows {r : Nat} {b : Bool}
    (hruns : exec (.lows vd va) s = succeed ((s.writeV vd (word256 r)).setFlip b)) (hr : r < 2 ^ 256) :
    ∃ t, Completes (.lows vd va) s t ∧ t.valueV vd = r ∧ t.flagFlip = b := by
  have hframe := ((FrameBut.refl (writes (.lows vd va)) s).writeV (List.mem_singleton_self vd) (word256 r)).setFlip
    rfl b
  exact ⟨_, completes_of_succeed hruns hframe rfl rfl,
    (congrArg BitVec.toNat (readV_writeV_same s vd _)).trans (toNat_word256 hr), rfl⟩

theorem lows_keeps_of_le_halfN (h : s.valueV va ≤ Config.halfN) :
    ∃ t, Completes (.lows vd va) s t ∧ t.valueV vd = s.valueV va ∧ t.flagFlip = false :=
  completes_lows (exec_lows_of_le_halfN h) (valueV_lt s va)

theorem lows_negates_of_halfN_lt (h : Config.halfN < s.valueV va) (hlt : s.valueV va < Config.n) :
    ∃ t, Completes (.lows vd va) s t ∧ t.valueV vd = Config.n - s.valueV va ∧ t.valueV vd ≤ Config.halfN ∧
      t.flagFlip = true := by
  have hn := n_eq_two_mul_halfN_add_one
  obtain ⟨t, ht, hvalue, hflip⟩ := completes_lows (vd := vd) (exec_lows_of_halfN_lt h hlt)
    ((Nat.sub_le ..).trans_lt n_lt)
  exact ⟨t, ht, hvalue, by omega, hflip⟩

/-- 44_lows.md R162: the result is low, and not 0 unless the operand is. -/
theorem lows_result_low (vd : VReg) (hlt : s.valueV va < Config.n) :
    ∃ t, exec (.lows vd va) s = .next t ∧ t.valueV vd ≤ Config.halfN ∧ (1 ≤ s.valueV va → 1 ≤ t.valueV vd) := by
  rcases Nat.lt_or_ge Config.halfN (s.valueV va) with hhigh | hlow
  · obtain ⟨t, ht, hvalue, hle, -⟩ := lows_negates_of_halfN_lt (vd := vd) hhigh hlt
    exact ⟨t, ht.runs, hle, by omega⟩
  · obtain ⟨t, ht, hvalue, -⟩ := lows_keeps_of_le_halfN (vd := vd) hlow
    exact ⟨t, ht.runs, by omega, by omega⟩

end

/-- Settles O40: s is compared with n and then with HALFN; n - s is low for a high s, because n = 2 * HALFN + 1. -/
theorem lowsCanonicalizes : Obligations.LowsCanonicalizes := by
  intro vd va s
  exact ⟨encodes_lows vd va, lows_keeps_of_le_halfN, lows_negates_of_halfN_lt, exec_lows_of_le⟩

/-! ## SCHK -/

theorem schk_completes (va vb : VReg) (s : State) :
    ∃ t, Completes (.schk va vb) s t ∧
      t.flagSv = (inSignatureRange (s.valueV va) && inSignatureRange (s.valueV vb)) ∧
      t.flagLow = decide (s.valueV vb ≤ Config.halfN) := by
  have hframe := (FrameBut.refl (writes (.schk va vb)) s).setRange rfl
    (inSignatureRange (s.valueV va) && inSignatureRange (s.valueV vb)) (decide (s.valueV vb ≤ Config.halfN))
  exact ⟨_, completes_of_succeed rfl hframe rfl rfl, rfl, rfl⟩

/-- Settles O41: SCHK checks nothing and writes the two answers as flags; HALFN is (n - 1) / 2. -/
theorem schkReportsRange : Obligations.SchkReportsRange := by
  intro va vb s
  obtain ⟨t, ht, hsv, hlow⟩ := schk_completes va vb s
  refine ⟨encodes_schk va vb, t, ht, ?_, ?_⟩
  · rw [hsv, Bool.and_eq_true, inSignatureRange_eq_true_iff, inSignatureRange_eq_true_iff]
  · have hn := n_eq_two_mul_halfN_add_one
    have hhalf : (Config.n - 1) / 2 = Config.halfN := by omega
    rw [hlow, decide_eq_true_iff, hhalf]

/-! ## Idempotence (44_lows.md R162) -/

/-- Settles O42: the first result is at most HALFN, so LOWS keeps it and SCHK finds it low. -/
theorem canonicalizationIsIdempotent : Obligations.CanonicalizationIsIdempotent := by
  intro vd va ve vr s hlt
  obtain ⟨t, ht, hlow, hpos⟩ := lows_result_low vd hlt
  obtain ⟨u, hu, hsame, hflip⟩ := lows_keeps_of_le_halfN (vd := ve) hlow
  obtain ⟨x, hx, -, hxlow⟩ := schk_completes vr vd t
  exact ⟨t, u, x, ht, hu.runs, BitVec.eq_of_toNat_eq hsame, hflip, hx.runs, hxlow.trans (decide_eq_true hlow),
    fun h => ⟨hpos h, hlow⟩⟩

end Sys2Proof.Machine
end

section
/-! PROOFS. The system operations of 45_system.md: NOP and its only word, and the writes to CTRL and STATUS. -/

namespace Sys2Proof.Machine

open Sys2Proof.Laws

/-! ## NOP (R165) -/

/-- NOP's word has every field zero (30_encoding.md R84). -/
theorem encodes_nop : Encodes .nop 0x00 0 0 0 0 0 :=
  decode_iff_of_row WordInItsRow.nop rfl (opcField_cmdWord ..) rfl rfl

theorem cmdWord_zero : cmdWord 0 0 0 0 0 0 = 0 := by decide

theorem decode_eq_nop_iff (w : Word32) : decode w = .ok .nop ↔ w = 0 := by
  rw [encodes_nop w, cmdWord_zero]

/-- NOP's row makes nothing but NOP, so a word of its OPC that is not NOP breaks the row's mask. -/
theorem decode_of_opcField_zero {w : Word32} (hopc : opcField w = 0) (hw : w ≠ 0) :
    decode w = .error .illegalField := by
  have hrow : rowOf (opcField w) = some ⟨0x00, 0x00000000, 0xFFFFFFFF, fun _ => .nop⟩ := by
    rw [hopc]
    rfl
  have hbroken : w &&& 0xFFFFFFFF ≠ 0x00000000 := fun hmask =>
    hw ((decode_eq_nop_iff w).mp (decode_eq_ok_of_row _ hrow hmask rfl))
  rw [decode_of_row hrow]
  exact if_neg hbroken

theorem completes_nop (s : State) : Completes .nop s s.complete :=
  completes_of_succeed rfl (FrameBut.refl _ s) rfl rfl

/-- Settles O43: NOP's mask covers the whole word, and NOP is the bare completion. -/
theorem nopOnlyCompletes : Obligations.NopOnlyCompletes :=
  ⟨fun w => ⟨decode_eq_nop_iff w, decode_of_opcField_zero⟩, fun s => ⟨_, completes_nop s, rfl⟩⟩

/-! ## CTRL and STATUS, which are never locked -/

section
variable {s : State} {w : Word32} {rest : List Turn}

theorem step_write_ctrl (h : NextAccess s (memWrite 0x004 w) rest) :
    step s = .next { writeCtrl w { s with schedule := rest } with response := okWritten } :=
  step_write_unlocked h (by decide) (by decide) (isLocked_of_notData rfl s)

theorem step_write_status (h : NextAccess s (memWrite 0x008 w) rest) :
    step s = .next { ({ s with schedule := rest } : State).clearStatus w with response := okWritten } :=
  step_write_unlocked h (by decide) (by decide) (isLocked_of_notData rfl s)

theorem step_read_ctrl (h : NextAccess s (memRead 0x004) rest) :
    step s = .next { s with schedule := rest, response := okData (ctrlWord s) } :=
  step_read_unlocked h (by decide) (by decide) (isLocked_of_notData rfl s)

theorem writeCtrl_reset (h : w.getLsbD 1 = true) (s : State) : writeCtrl w s = s.resetBlock := if_pos h

theorem writeCtrl_enable (h : w.getLsbD 1 = false) (s : State) : writeCtrl w s = { s with ie := w.getLsbD 0 } := by
  rw [writeCtrl, h]
  rfl

end

/-! ## Reset (R166) -/

/-- SRST reads as 0 (10_state.md R28). -/
theorem ctrlWord_bit1 (s : State) : (ctrlWord s).getLsbD 1 = false := by
  rw [ctrlWord, BitVec.getLsbD_append, if_neg (Nat.lt_irrefl 1), BitVec.getLsbD_zero]

/-- With rst_n at 1 a reset keeps only what belongs to the ports. -/
theorem resetBlock_of_up {s : State} (h : s.rstN = true) :
    s.resetBlock = { State.reset with schedule := s.schedule, response := s.response } := by
  rw [State.resetBlock, h]
  rfl

/-- After a fall of rst_n its rise starts the block from its reset values. -/
theorem resetRises_resetFalls (s : State) :
    resetRises (resetFalls s) = { State.reset with schedule := s.schedule, response := s.response } := rfl

/-- Settles O44: a CTRL write with SRST = 1 is resetBlock with rst_n at 1, and so is a cycle of rst_n; the CTRL word has
a constant 0 in SRST's place. -/
theorem softResetResets : Obligations.SoftResetResets := by
  intro s w rest
  refine ⟨fun h hsrst => ?_, fun h => ⟨_, step_turn h, ?_⟩, fun h => ⟨_, step_read_ctrl h, ctrlWord_bit1 s⟩⟩
  · rw [step_write_ctrl h, writeCtrl_reset hsrst, resetBlock_of_up (s := { s with schedule := rest }) h.up]
  · rw [step_turn (s := resetFalls { s with schedule := .rstRises :: rest }) rfl]
    exact congrArg Host.Outcome.next (resetRises_resetFalls { s with schedule := rest })

/-! ## Clearing STATUS (R167) -/

/-- Settles O45: STATUS is never locked, and the write clears each of its four fields by that field's bit. -/
theorem statusWriteClears : Obligations.StatusWriteClears := by
  intro s w rest h
  rw [step_write_status h]
  simp only [State.clearStatus, Bool.if_false_left, Bool.decide_eq_true, Bool.and_comm]

/-! ## The interrupt enable (R168) -/

/-- Settles O46: a CTRL write with SRST = 0 sets IE alone, and IRQ is IE and DONE. -/
theorem ctrlWriteEnablesInterrupt : Obligations.CtrlWriteEnablesInterrupt := by
  intro s w rest h hsrst
  refine ⟨_, ?_, rfl, rfl⟩
  rw [step_write_ctrl h, writeCtrl_enable hsrst]

end Sys2Proof.Machine
end

section
/-! PROOFS. The reset values of 70_reset_and_hazards.md: DBUF's bytes, and what STATUS and CTRL read after reset. -/

namespace Sys2Proof.Machine

/-! ## Reset values (R191) -/

theorem reset_dbuf_getElem (j : Fin 80) : State.reset.dbuf[j] = 0 := Vector.getElem_replicate j.isLt

/-- The reset value of every field of STATUS is 0, and ERRCODE's `none` is code 0x00 (10_state.md R29). -/
theorem statusWord_reset : statusWord State.reset = 0 := by decide

/-- IE is the one bit of CTRL that does not read as a constant 0 (10_state.md R28). -/
theorem ctrlWord_of_disabled {s : State} (h : s.ie = false) : ctrlWord s = 0 := by
  rw [ctrlWord, h]
  decide

/-- Settles O56: the register files and DBUF are replicated reset values, the other elements stand in the record, and
the reads are the words of those elements. -/
theorem resetValues : Obligations.ResetValues :=
  ⟨reset_readV, reset_readP, reset_dbuf_getElem, rfl, rfl, rfl, rfl, rfl, rfl, rfl, rfl, rfl, rfl, rfl, rfl, rfl, rfl,
    rfl, rfl, statusWord_reset, ctrlWord_of_disabled rfl, rfl⟩

end Sys2Proof.Machine
end

section
/-! PROOFS. The encoding as a whole (30_encoding.md sections 1 to 3): decode and encode undo each other, a word belongs
to at most one row of the opcode map, and the words that are reserved or illegal. -/

namespace Sys2Proof.Laws

open Sys2Proof.Machine

/-! ## Decode of encode -/

theorem encodes_pmul (alg : Algorithm) (pd pa : PReg) (vb : VReg) :
    Encodes (.pmul alg pd pa vb) 0x20 pd pa vb (selOfAlgorithm alg) 0 :=
  decode_iff_of_row (WordInItsRow.pmul alg pd pa vb) rfl (opcField_cmdWord ..) rfl (by simp [encode])

/-- A command whose word is known field by field is read back from it. -/
theorem decode_encode_of_encodes {i : Instr} {o : BitVec 6} {d a b : Fin 16} {sel : BitVec 2} {imm : BitVec 12}
    (h : Encodes i o d a b sel imm) (hword : encode i = cmdWord o d a b sel imm) : decode (encode i) = .ok i :=
  (h _).mpr hword

/-- Settles O3: each command's word is the one with its operands in their fields, and that word decodes to it. -/
theorem decodeOfEncode : Obligations.DecodeOfEncode := by
  intro i hwf
  cases i with
  | nop => exact decode_encode_of_encodes encodes_nop rfl
  | madd m vd va vb => exact decode_encode_of_encodes (encodes_madd m vd va vb) rfl
  | msub m vd va vb => exact decode_encode_of_encodes (encodes_msub m vd va vb) rfl
  | mmul m vd va vb => exact decode_encode_of_encodes (encodes_mmul m vd va vb) rfl
  | msqr m vd va => exact decode_encode_of_encodes (encodes_msqr m vd va) rfl
  | minv m vd va => exact decode_encode_of_encodes (encodes_minv m vd va) rfl
  | mneg m vd va => exact decode_encode_of_encodes (encodes_mneg m vd va) rfl
  | mred m vd va => exact decode_encode_of_encodes (encodes_mred m vd va) rfl
  | mov vd va => exact decode_encode_of_encodes (encodes_mov vd va) rfl
  | ldi vd imm => exact decode_encode_of_encodes (encodes_ldi vd (of_decide_eq_true hwf)) rfl
  | ldc vd c => exact decode_encode_of_encodes (encodes_ldc vd c) rfl
  | cmp va vb => exact decode_encode_of_encodes (encodes_cmp va vb) rfl
  | pld pd va vb => exact decode_encode_of_encodes (encodes_pld va vb pd) rfl
  | pinf pd => exact decode_encode_of_encodes (encodes_pinf pd) rfl
  | pgen pd => exact decode_encode_of_encodes (encodes_pgen pd) rfl
  | px vd pa => exact decode_encode_of_encodes (encodes_px vd pa) rfl
  | py vd pa => exact decode_encode_of_encodes (encodes_py vd pa) rfl
  | padd pd pa pb => exact decode_encode_of_encodes (encodes_padd pd pa pb) rfl
  | pdbl pd pa => exact decode_encode_of_encodes (encodes_pdbl pd pa) rfl
  | ptpl pd pa pb => exact decode_encode_of_encodes (encodes_ptpl pd pa pb) rfl
  | pneg pd pa => exact decode_encode_of_encodes (encodes_pneg pd pa) rfl
  | pnorm pd pa => exact decode_encode_of_encodes (encodes_pnorm pd pa) rfl
  | ppow2 pd pa count => exact decode_encode_of_encodes (encodes_ppow2 pd pa (of_decide_eq_true hwf)) rfl
  | peq pa pb => exact decode_encode_of_encodes (encodes_peq pa pb) rfl
  | pmul alg pd pa vb => exact decode_encode_of_encodes (encodes_pmul alg pd pa vb) rfl
  | denc va vb => exact decode_encode_of_encodes (encodes_denc va vb) rfl
  | ddec vd va => exact decode_encode_of_encodes (encodes_ddec vd va) rfl
  | lows vd va => exact decode_encode_of_encodes (encodes_lows vd va) rfl
  | schk va vb => exact decode_encode_of_encodes (encodes_schk va vb) rfl

/-! ## Encode of decode -/

/-- An immediate read from IMM fits IMM. -/
theorem fitsImm_immField (w : Word32) : fitsImm (immField w).toNat = true :=
  decide_eq_true (immField w).isLt

/-- Only LDI and PPOW2 have an immediate, and their rows read it from IMM. -/
theorem opcodeMap_makesWellFormed : ∀ r ∈ opcodeMap, ∀ w, (r.make w).wellFormed = true := by
  simp [opcodeMap, systemRows, modularRows, registerRows, pointLoadRows, pointArithmeticRows, signatureRows,
    Instr.wellFormed, fitsImm_immField]

/-- Settles O4: a legal word is the encoding of its row's command, whose immediate comes from a 12-bit field. -/
theorem encodeOfDecode : Obligations.EncodeOfDecode := by
  intro w i h
  obtain ⟨r, hmem, -, -, hmake⟩ := decode_eq_ok h
  exact ⟨encode_of_decode_eq_ok h, hmake ▸ opcodeMap_makesWellFormed r hmem w⟩

/-! ## One row -/

/-- Every row's mask covers OPC, and its match has the row's OPC there (30_encoding.md R84). -/
theorem opcodeMap_fixesOpc : ∀ r ∈ opcodeMap, opcField r.mask = BitVec.allOnes 6 ∧ opcField r.pattern = r.opc := by
  decide

theorem opcField_of_match {w : Word32} {r : Row} (hmem : r ∈ opcodeMap) (h : w &&& r.mask = r.pattern) :
    opcField w = r.opc := by
  obtain ⟨hmask, hpattern⟩ := opcodeMap_fixesOpc r hmem
  calc opcField w = opcField w &&& opcField r.mask := by rw [hmask, BitVec.and_allOnes]
    _ = opcField (w &&& r.mask) := BitVec.extractLsb'_and.symm
    _ = r.opc := by rw [h, hpattern]

theorem rowOf_opcField {w : Word32} {r : Row} (hmem : r ∈ opcodeMap) (h : opcField w = r.opc) :
    rowOf (opcField w) = some r := by
  rw [h, rowOf_opc r hmem]

/-- Settles O5: a match fixes the word's OPC, and each OPC has one row. -/
theorem wordOfItsRow : Obligations.WordOfItsRow := by
  intro w r hmem h
  have hopc := opcField_of_match hmem h
  exact ⟨decode_eq_ok_of_row r (rowOf_opcField hmem hopc) h rfl,
    fun r' hmem' h' => (opcField_of_match hmem' h').symm.trans hopc⟩

/-! ## Reserved and illegal words -/

/-- The OPC values in no row are the five reserved ranges (30_encoding.md R86). -/
theorem isNone_rowOf_iff (o : BitVec 6) : (rowOf o).isNone = true ↔
    (0x0C ≤ o.toNat ∧ o.toNat ≤ 0x0F) ∨ (0x1C ≤ o.toNat ∧ o.toNat ≤ 0x1F) ∨ (0x21 ≤ o.toNat ∧ o.toNat ≤ 0x27) ∨
      (0x2A ≤ o.toNat ∧ o.toNat ≤ 0x2F) ∨ (0x32 ≤ o.toNat ∧ o.toNat ≤ 0x3F) := by
  decide +revert

/-- ILLEGAL_OPCODE is raised for want of a row, and for nothing else (30_encoding.md R85). -/
theorem decode_eq_illegalOpcode_iff (w : Word32) :
    decode w = .error .illegalOpcode ↔ (rowOf (opcField w)).isNone = true := by
  rw [Option.isNone_iff_eq_none]
  refine ⟨fun h => ?_, decode_of_noRow⟩
  cases hrow : rowOf (opcField w) with
  | none => rfl
  | some r =>
    rw [decode_of_row hrow] at h
    split at h
    · contradiction
    · cases h

/-- Settles O6: the words without a row, the words that break their row's mask, and NOP's only word. -/
theorem reservedAndIllegalWords : Obligations.ReservedAndIllegalWords := by
  intro w
  refine ⟨?_, fun r hmem hopc hbroken => ?_, decode_eq_nop_iff w⟩
  · rw [decode_eq_illegalOpcode_iff]
    exact (isNone_rowOf_iff (opcField w)).symm
  · rw [decode_of_row (rowOf_opcField hmem hopc), if_neg hbroken]

/-! ## A word of each family (30_encoding.md R84) -/

/-- Settles O2: each word has its row's OPC and match, and the row reads the command from its fields. -/
theorem familyWordsDecode : Obligations.FamilyWordsDecode := by
  have minv : decode 0x15481000#32 = .ok (.minv .n 5 2) :=
    decode_eq_ok_of_row ⟨0x05, 0x14000000, 0xFC03EFFF, _⟩ rfl (by decide) rfl
  have ldi : decode 0x24C00FFF#32 = .ok (.ldi 3 0xFFF) :=
    decode_eq_ok_of_row ⟨0x09, 0x24000000, 0xFC3FF000, _⟩ rfl (by decide) rfl
  have pld : decode 0x40AAC000#32 = .ok (.pld 2 10 11) :=
    decode_eq_ok_of_row ⟨0x10, 0x40000000, 0xFC003FFF, _⟩ rfl (by decide) rfl
  have ppow2 : decode 0x68400100#32 = .ok (.ppow2 1 0 256) :=
    decode_eq_ok_of_row ⟨0x1A, 0x68000000, 0xFC03F000, _⟩ rfl (by decide) rfl
  have pmul : decode 0x810A7000#32 = .ok (.pmul .zsd 4 2 9) :=
    decode_eq_ok_of_row ⟨0x20, 0x80000000, 0xFC000FFF, _⟩ rfl (by decide) rfl
  have denc : decode 0xA00D8000#32 = .ok (.denc 3 6) :=
    decode_eq_ok_of_row ⟨0x28, 0xA0000000, 0xFFC03FFF, _⟩ rfl (by decide) rfl
  have lows : decode 0xC1980000#32 = .ok (.lows 6 6) :=
    decode_eq_ok_of_row ⟨0x30, 0xC0000000, 0xFC03FFFF, _⟩ rfl (by decide) rfl
  have schk : decode 0xC40D8000#32 = .ok (.schk 3 6) :=
    decode_eq_ok_of_row ⟨0x31, 0xC4000000, 0xFFC03FFF, _⟩ rfl (by decide) rfl
  exact ⟨(decode_eq_nop_iff 0).mpr rfl, minv, ldi, pld, ppow2, pmul, denc, lows, schk⟩

end Sys2Proof.Laws
end

section
/-! PROOFS. PMUL, whose four algorithms agree (42_scalar_mult.md R141), and the recoding of R143: naf(k) is the one
non-adjacent form of k, because a digit of such a form is decided by the value mod 4. -/

namespace Sys2Proof.Laws

open Sys2Proof.Machine

/-! ## PMUL -/

/-- 42_scalar_mult.md R141: the algorithm does not show in the result. -/
theorem multiply_eq_kFold (alg : Algorithm) {k : Nat} {A : Point} (hk : k < 2 ^ 256) (hA : onCurve A = true) :
    multiply alg k A = kFold k A := by
  obtain ⟨href, hnaf, hladder, hzsd⟩ := fourMultipliersAgree k A hk hA
  cases alg with
  | ref => exact href
  | naf => exact hnaf
  | ladder => exact hladder
  | zsd => exact hzsd

theorem onCurve_multiply (alg : Algorithm) {k : Nat} {A : Point} (hk : k < 2 ^ 256) (hA : onCurve A = true) :
    onCurve (multiply alg k A) = true := by
  have : Fact (Nat.Prime Config.p) := ⟨prime_p⟩
  rw [multiply_eq_kFold alg hk hA]
  exact (kFold_spec hA k).1

/-- Settles O31: PMUL writes its algorithm's result, which is [k]A because a register's value is below 2^256. -/
theorem pmulGivesTheKFoldSum : Obligations.PmulGivesTheKFoldSum := by
  intro alg pd pa vb s
  refine ⟨encodes_pmul alg pd pa vb, fun hA => ?_⟩
  obtain ⟨t, ht, hread, hz⟩ := completes_finishPoint (i := .pmul alg pd pa vb) (s := s) rfl rfl
  exact ⟨t, ht, hread.trans (multiply_eq_kFold alg (valueV_lt s vb) hA), hz⟩

/-! ## Digit lists -/

theorem nonAdjacent_cons {d : Digit} {ds : List Digit} :
    nonAdjacent (d :: ds) ↔ (d = .zero ∨ ds.head?.getD .zero = .zero) ∧ nonAdjacent ds := by
  cases ds with
  | nil => simp [nonAdjacent]
  | cons e es => simp [nonAdjacent]

/-- The value is even exactly when the least significant digit is zero. -/
theorem digitsValue_emod_two (ds : List Digit) : digitsValue ds % 2 = 0 ↔ ds.head?.getD .zero = .zero := by
  cases ds with
  | nil => decide
  | cons d ds =>
    rw [digitsValue, Int.add_mul_emod_self_left, List.head?_cons, Option.getD_some]
    cases d <;> decide

/-- A non-zero digit of a non-adjacent form has a zero above it, so it alone decides the value mod 4. -/
theorem digitsValue_emod_four {d : Digit} {ds : List Digit} (h : nonAdjacent (d :: ds)) :
    d = .zero ∨ digitsValue (d :: ds) % 4 = digitValue d % 4 := by
  obtain ⟨hd, -⟩ := nonAdjacent_cons.mp h
  refine hd.imp_right fun hnext => ?_
  have heven := (digitsValue_emod_two ds).mpr hnext
  rw [digitsValue]
  omega

theorem getLast?_tail {d : Digit} {ds : List Digit} (h : (d :: ds).getLast? ≠ some .zero) :
    ds.getLast? ≠ some .zero := by
  cases ds with
  | nil => nofun
  | cons e es => rwa [List.getLast?_cons_cons] at h

/-- The only list of value 0 whose most significant digit is not zero is the empty one. -/
theorem eq_nil_of_digitsValue_eq_zero {ds : List Digit} (hvalue : digitsValue ds = 0)
    (hlast : ds.getLast? ≠ some .zero) : ds = [] := by
  induction ds with
  | nil => rfl
  | cons d ds ih =>
    have hzero : d = .zero := (digitsValue_emod_two (d :: ds)).mp (by rw [hvalue]; rfl)
    subst hzero
    rw [digitsValue, digitValue] at hvalue
    rw [ih (by omega) (getLast?_tail hlast)] at hlast
    exact absurd rfl hlast

/-! ## The recoding (R143) -/

theorem length_nafLoop_le (fuel k : Nat) : (nafLoop fuel k).length ≤ fuel := by
  fun_induction nafLoop fuel k with
  | case1 => exact Nat.le_refl 0
  | case2 => exact Nat.zero_le _
  | case3 fuel k _ _ ih => exact Nat.succ_le_succ ih
  | case4 fuel k _ _ _ ih => exact Nat.succ_le_succ ih
  | case5 fuel k _ _ _ ih => exact Nat.succ_le_succ ih

/-- The recoding of an even value is empty or begins with zero. -/
theorem head?_nafLoop_of_even (fuel : Nat) {k : Nat} (hk : k % 2 = 0) : (nafLoop fuel k).head?.getD .zero = .zero := by
  cases fuel with
  | zero => rfl
  | succ fuel =>
    rw [nafLoop, if_neg (c := k % 4 = 1) (by omega), if_neg (c := k % 4 = 3) (by omega)]
    split <;> rfl

/-- What is left to recode after a non-zero digit is even. -/
theorem nonAdjacent_nafLoop (fuel k : Nat) : nonAdjacent (nafLoop fuel k) := by
  fun_induction nafLoop fuel k with
  | case1 => exact List.isChain_nil
  | case2 => exact List.isChain_nil
  | case3 fuel k _ hk ih => exact nonAdjacent_cons.mpr ⟨.inr (head?_nafLoop_of_even fuel (by omega)), ih⟩
  | case4 fuel k _ _ hk ih => exact nonAdjacent_cons.mpr ⟨.inr (head?_nafLoop_of_even fuel (by omega)), ih⟩
  | case5 fuel k _ _ _ ih => exact nonAdjacent_cons.mpr ⟨.inl rfl, ih⟩

/-- The recoding's choice of digit is forced, so it finds every non-adjacent form without a leading zero. -/
theorem eq_nafLoop {fuel k : Nat} (hk : 2 * k ≤ 2 ^ fuel) {ds : List Digit} (hvalue : digitsValue ds = k)
    (hadj : nonAdjacent ds) (hlast : ds.getLast? ≠ some .zero) : ds = nafLoop fuel k := by
  induction fuel generalizing k ds with
  | zero =>
    obtain rfl : k = 0 := by omega
    exact eq_nil_of_digitsValue_eq_zero hvalue hlast
  | succ fuel ih =>
    cases ds with
    | nil =>
      obtain rfl : k = 0 := by rw [digitsValue] at hvalue; omega
      rfl
    | cons d ds =>
      have h0 : k ≠ 0 := by
        rintro rfl
        exact absurd (eq_nil_of_digitsValue_eq_zero hvalue hlast) (List.cons_ne_nil d ds)
      have hfour := digitsValue_emod_four hadj
      obtain ⟨-, hadj'⟩ := nonAdjacent_cons.mp hadj
      have hlast' := getLast?_tail hlast
      rw [hvalue] at hfour
      rw [digitsValue] at hvalue
      cases d with
      | zero =>
        rw [digitValue] at hvalue
        rw [nafLoop, if_neg h0, if_neg (by omega), if_neg (by omega), ← ih (by omega) (by omega) hadj' hlast']
      | plus =>
        have h1 := hfour.resolve_left nofun
        rw [digitValue] at hvalue h1
        rw [nafLoop, if_neg h0, if_pos (by omega), ← ih (by omega) (by omega) hadj' hlast']
      | minus =>
        have h3 := hfour.resolve_left nofun
        rw [digitValue] at hvalue h3
        have hlt : k < 2 ^ fuel := by -- k is odd and at least 3, and 2^fuel is 1 or even
          cases fuel with
          | zero => omega
          | succ fuel => omega
        rw [nafLoop, if_neg h0, if_neg (by omega), if_pos (by omega), ← ih (by omega) (by omega) hadj' hlast']

/-- Settles O33: naf(k) has k's value, skips a digit after each non-zero one, uses at most its t + 1 digits, and takes
the only digit a non-adjacent form can have at each step. -/
theorem nafIsTheNonAdjacentForm : Obligations.NafIsTheNonAdjacentForm := by
  intro k
  have hlt := lt_pow_bitLength k
  exact ⟨⟨digitsValue_naf k, nonAdjacent_nafLoop _ k, length_nafLoop_le _ k⟩,
    fun ds hvalue hadj hlast => eq_nafLoop (by omega) hvalue hadj hlast⟩

end Sys2Proof.Laws
end

section
/-! PROOFS. der_dec against the grammar of 43_der.md R152: each of its functions reads exactly what the grammar names,
the errors it can raise, and the length of the longest accepted string. -/

namespace Sys2Proof.Machine

/-! ## The content of an integer below 2^256 -/

theorem beValue_cons (b : Byte) (c : List Byte) : beValue (b :: c) = b.toNat * 256 ^ c.length + beValue c := by
  induction c using List.reverseRecOn with
  | nil => simp [beValue]
  | append_singleton c x ih =>
    rw [← List.cons_append, beValue_concat, ih, beValue_concat, List.length_append, List.length_singleton, pow_succ]
    ring

/-- Two bytes with a set bit among their upper nine, and 32 bytes below them, make 2^256 or more. -/
theorem pow_le_beValue {b x : Byte} {c : List Byte} (htop : ¬(b = 0x00#8 ∧ x.toNat < 0x80)) (hlen : 32 ≤ c.length) :
    2 ^ 256 ≤ beValue (b :: x :: c) := by
  have hhead : 0x80 ≤ b.toNat * 256 + x.toNat := by
    by_contra hsmall
    exact htop ⟨BitVec.eq_of_toNat_eq (show b.toNat = 0 by omega), by omega⟩
  calc 2 ^ 256 ≤ 0x80 * 256 ^ 32 := by decide
    _ ≤ (b.toNat * 256 + x.toNat) * 256 ^ c.length := Nat.mul_le_mul hhead (Nat.pow_le_pow_right (by decide) hlen)
    _ ≤ (b.toNat * 256 + x.toNat) * 256 ^ c.length + beValue c := Nat.le_add_right _ _
    _ = beValue (b :: x :: c) := by
      rw [beValue_cons, beValue_cons, List.length_cons, pow_succ]
      ring

/-- 10_state.md R24: a minimal content of a value below 2^256 has at most 32 bytes of magnitude after one 00. -/
theorem isDerContent.length_le {c : List Byte} (h : isDerContent c) : c.length ≤ 33 := by
  obtain ⟨-, hlt, -, hminimal⟩ := h
  match c with
  | [] => exact Nat.zero_le _
  | [_] => exact Nat.le_add_left 1 32
  | b :: x :: c =>
    by_contra hlong
    rw [List.length_cons, List.length_cons] at hlong
    have htop : ¬(b = 0x00#8 ∧ x.toNat < 0x80) := fun h => hminimal ⟨Nat.le_add_left 2 _, h⟩
    exact absurd hlt (Nat.not_lt_of_le (pow_le_beValue htop (by omega)))

/-! ## What each function reads -/

theorem byte_toNat (x : Byte) : byte x.toNat = x := by
  rw [byte, BitVec.ofNat_toNat, BitVec.setWidth_eq]

/-- der_len() reads exactly the lengths of the grammar. -/
theorem derLen_eq_ok_iff {bs rest : List Byte} {k : Nat} :
    derLen bs = .ok (k, rest) ↔ ∃ l, bs = l ++ rest ∧ isDerLength l k := by
  constructor
  · intro h
    rw [derLen] at h
    split at h
    · contradiction
    rename_i x rest' hx
    rw [derNext_eq_ok_iff] at hx
    split_ifs at h with hshort hlong
    · obtain ⟨rfl, rfl⟩ := Prod.mk.inj (Except.ok.inj h)
      exact ⟨[x], hx, .inl ⟨hshort, by rw [byte_toNat]⟩⟩
    · split at h
      · contradiction
      rename_i y rest'' hy
      rw [derNext_eq_ok_iff] at hy
      obtain ⟨rfl, rfl⟩ := Prod.mk.inj (Except.ok.inj h)
      exact ⟨[0x81#8, y], by rw [hx, hy, hlong]; rfl, .inr ⟨y.isLt, by rw [byte_toNat]⟩⟩
  · rintro ⟨l, rfl, ⟨hk, rfl⟩ | ⟨hk, rfl⟩⟩
    · exact derLen_short hk rest
    · simp [derLen, derNext, toNat_byte hk]

/-- der_int_dec() reads exactly one INTEGER and leaves what follows it. -/
theorem derIntDec_eq_ok_iff_isDerInteger {bs rest : List Byte} {v : Nat} :
    derIntDec bs = .ok (v, rest) ↔ ∃ b, bs = b ++ rest ∧ isDerInteger b v := by
  rw [derIntDec_eq_ok_iff]
  constructor
  · rintro ⟨afterTag, len, body, rfl, hlen, hpos, hfits, hvalue, rfl⟩
    obtain ⟨l, rfl, hl⟩ := derLen_eq_ok_iff.mp hlen
    have htake : (body.take len).length = len := List.length_take_of_le hfits
    have hne : body.take len ≠ [] := List.ne_nil_of_length_pos (by omega)
    obtain ⟨hcontent, -, hv⟩ := (derContentValue_eq_ok_iff hne).mp hvalue
    refine ⟨0x02#8 :: (l ++ body.take len), ?_, l, body.take len, rfl, htake.symm ▸ hl, hcontent, hv⟩
    rw [List.cons_append, List.append_assoc, List.take_append_drop]
  · rintro ⟨_, rfl, l, c, rfl, hl, hcontent, hv⟩
    have hne : c ≠ [] := hcontent.1
    refine ⟨l ++ (c ++ rest), c.length, c ++ rest, ?_, derLen_eq_ok_iff.mpr ⟨l, rfl, hl⟩,
      (List.length_pos_iff.mpr hne).ne', ?_, ?_, List.drop_left⟩
    · rw [List.cons_append, List.append_assoc]
    · rw [List.length_append]
      exact Nat.le_add_right _ _
    · rw [List.take_left]
      exact (derContentValue_eq_ok_iff hne).mpr ⟨hcontent, hcontent.length_le, hv⟩

/-- der_dec accepts exactly the SEQUENCE of two INTEGERs. -/
theorem derDecode_eq_ok_iff_isDerPair {b : List Byte} {r k : Nat} : derDecode b = .ok (r, k) ↔ isDerPair b r k := by
  simp only [derDecode_eq_ok_iff, derLen_eq_ok_iff, derIntDec_eq_ok_iff_isDerInteger, List.append_nil]
  constructor
  · rintro ⟨_, _, bs, rfl, ⟨l, rfl, hl⟩, ⟨br, rfl, hr⟩, _, rfl, hk⟩
    exact ⟨l, br, bs, rfl, hl, hr, hk⟩
  · rintro ⟨l, br, bs, rfl, hl, hr, hk⟩
    exact ⟨_, br ++ bs, bs, rfl, ⟨l, rfl, hl⟩, ⟨br, rfl, hr⟩, bs, rfl, hk⟩

/-! ## The errors -/

/-- The two errors of der_dec (60_exceptions.md R171). -/
def IsDerError (c : ErrorCode) : Prop := c = .derFormat ∨ c = .derOverflow

theorem derNext_error {bs : List Byte} {c : ErrorCode} (h : derNext bs = .error c) : IsDerError c := by
  cases bs with
  | nil => exact .inl (Except.error.inj h).symm
  | cons b rest => contradiction

theorem derLen_error {bs : List Byte} {c : ErrorCode} (h : derLen bs = .error c) : IsDerError c := by
  rw [derLen] at h
  split at h
  next hnext => exact Except.error.inj h ▸ derNext_error hnext
  next x rest hnext =>
    split_ifs at h
    · split at h
      next hnext' => exact Except.error.inj h ▸ derNext_error hnext'
      next => contradiction
    · exact .inl (Except.error.inj h).symm

theorem derContentValue_error {bs : List Byte} {c : ErrorCode} (h : derContentValue bs = .error c) : IsDerError c := by
  rw [derContentValue] at h
  split_ifs at h
  · exact .inl (Except.error.inj h).symm
  · exact .inl (Except.error.inj h).symm
  · exact .inr (Except.error.inj h).symm
  · exact .inr (Except.error.inj h).symm

theorem derIntDec_error {bs : List Byte} {c : ErrorCode} (h : derIntDec bs = .error c) : IsDerError c := by
  rw [derIntDec] at h
  split at h
  next hnext => exact Except.error.inj h ▸ derNext_error hnext
  split_ifs at h
  · exact .inl (Except.error.inj h).symm
  split at h
  next hlen => exact Except.error.inj h ▸ derLen_error hlen
  split_ifs at h
  · exact .inl (Except.error.inj h).symm
  split at h
  next hvalue => exact Except.error.inj h ▸ derContentValue_error hvalue
  next => contradiction

theorem derPair_error {bs : List Byte} {c : ErrorCode} (h : derPair bs = .error c) : IsDerError c := by
  rw [derPair] at h
  split at h
  next hr => exact Except.error.inj h ▸ derIntDec_error hr
  split at h
  next hs => exact Except.error.inj h ▸ derIntDec_error hs
  split_ifs at h
  exact .inl (Except.error.inj h).symm

theorem derDecode_error {bs : List Byte} {c : ErrorCode} (h : derDecode bs = .error c) : IsDerError c := by
  rw [derDecode] at h
  split at h
  next hnext => exact Except.error.inj h ▸ derNext_error hnext
  split_ifs at h
  · exact .inl (Except.error.inj h).symm
  split at h
  next hlen => exact Except.error.inj h ▸ derLen_error hlen
  split_ifs at h
  · exact .inl (Except.error.inj h).symm
  · exact derPair_error h

/-- Settles O36: the decoder's functions read exactly the grammar's parts, and each raises one of the two errors. -/
theorem decoderAcceptsTheGrammar : Obligations.DecoderAcceptsTheGrammar :=
  fun _ => ⟨fun _ _ => derDecode_eq_ok_iff_isDerPair, fun _ => derDecode_error⟩

/-! ## The longest accepted string (10_state.md R27) -/

theorem isDerLength.length_le {l : List Byte} {k : Nat} (h : isDerLength l k) : l.length ≤ 2 := by
  obtain ⟨-, rfl⟩ | ⟨-, rfl⟩ := h
  · exact Nat.le_succ 1
  · exact Nat.le_refl 2

theorem isDerInteger.length_le {b : List Byte} {k : Nat} (h : isDerInteger b k) : b.length ≤ 36 := by
  obtain ⟨l, c, rfl, hl, hcontent, -⟩ := h
  have hlen := hl.length_le
  have hbytes := hcontent.length_le
  rw [List.length_cons, List.length_append]
  omega

theorem isDerPair.length_le {b : List Byte} {r k : Nat} (h : isDerPair b r k) : b.length ≤ 75 := by
  obtain ⟨l, br, bs, rfl, hl, hr, hk⟩ := h
  have hlen := hl.length_le
  have hfirst := hr.length_le
  have hsecond := hk.length_le
  rw [List.length_cons, List.length_append, List.length_append]
  omega

/-- The INTEGER of 2^256 - 1 with its length in 0x81 form: 36 bytes. -/
def longestInteger : List Byte := 0x02#8 :: ([0x81#8, byte 33] ++ 0x00#8 :: List.replicate 32 0xFF#8)

theorem isDerInteger_longestInteger : isDerInteger longestInteger (2 ^ 256 - 1) := by
  have hvalue : beValue (0x00#8 :: List.replicate 32 0xFF#8) = 2 ^ 256 - 1 := by decide
  refine ⟨[0x81#8, byte 33], 0x00#8 :: List.replicate 32 0xFF#8, rfl, .inr ⟨by decide, rfl⟩, ⟨nofun, ?_, by decide, ?_⟩,
    hvalue⟩
  · rw [hvalue]
    decide
  · decide

/-- Settles O38: at most 3 bytes of SEQUENCE header and twice 36 bytes of INTEGER, which the pair of 2^256 - 1 with
itself attains when every length is in 0x81 form. -/
theorem largestSignature : Obligations.LargestSignature := by
  refine ⟨fun b r s h => (derDecode_eq_ok_iff_isDerPair.mp h).length_le, ?_⟩
  exact ⟨_, _, _, derDecode_eq_ok_iff_isDerPair.mpr ⟨[0x81#8, byte 72], longestInteger, longestInteger, rfl,
    .inr ⟨by decide, rfl⟩, isDerInteger_longestInteger, isDerInteger_longestInteger⟩, rfl⟩

end Sys2Proof.Machine
end

section
/-! PROOFS. What ENGINE's turn can do, said once for all commands: it ends the held command well, writing what the
command's rule names, or it fails the command and changes nothing else. -/

namespace Sys2Proof.Machine

open Sys2Proof.Laws

/-! ## The two ends of a command (10_state.md R21, 60_exceptions.md R172) -/

/-- Every P register is O or on the curve (10_state.md R25). -/
def PointsOnCurve (s : State) : Prop := ∀ q, onCurve (s.readP q) = true

/-- The answer to a command that may write k and was started in s: it ended well, or it failed. -/
inductive Ends (k : Writes) (s : State) : Out → Prop
  | well {t : State} (ended : EndedWell s t) (frame : FrameBut k s t) (curve : PointsOnCurve s → PointsOnCurve t) :
      Ends k s (.next t)
  | error (c : ErrorCode) : Ends k s (.next (failed s c))

theorem FrameBut.failed (k : Writes) (s : State) (c : ErrorCode) : FrameBut k s (failed s c) :=
  { FrameBut.refl k s with
    v := fun _ _ => rfl
    p := fun _ _ => rfl }

section
variable {k : Writes} {s : State}

theorem ends_succeed {u : State} (frame : FrameBut k s u) (herr : u.err = s.err) (hcode : u.errcode = s.errcode)
    (hcurve : PointsOnCurve s → PointsOnCurve u) : Ends k s (succeed u) :=
  .well (endedWell_complete herr hcode) frame.complete hcurve

theorem ends_withBelow {m : Nat} {i : VReg} {f : Nat → Out} (h : ∀ x, x < m → Ends k s (f x)) :
    Ends k s (withBelow m i s f) := by
  obtain ⟨-, hrange⟩ | ⟨hlt, hgoes⟩ := withBelow_cases m i s f
  · rw [hrange]
    exact .error .operandRange
  · rw [hgoes]
    exact h _ hlt

theorem ends_load {vd : VReg} (hvd : vd ∈ k.v) (x : Word256) : Ends k s (succeed (s.writeV vd x)) :=
  ends_succeed ((FrameBut.refl k s).writeV hvd x) rfl rfl id

theorem ends_modular {vd : VReg} (hvd : vd ∈ k.v) (hz : k.z = true) (x : Word256) (z : Bool) :
    Ends k s (succeed ((s.writeV vd x).setZ z)) :=
  ends_succeed (((FrameBut.refl k s).writeV hvd x).setZ hz z) rfl rfl id

theorem ends_point {pd : PReg} (hpd : pd ∈ k.p) (hz : k.z = true) {R : Point} (z : Bool)
    (hR : PointsOnCurve s → onCurve R = true) : Ends k s (succeed ((s.writeP pd R).setZ z)) := by
  refine ends_succeed (((FrameBut.refl k s).writeP hpd R).setZ hz z) rfl rfl fun hs q => ?_
  by_cases hq : q = pd
  · subst hq
    exact (congrArg onCurve (readP_writeP_same s q R)).trans (hR hs)
  · exact (congrArg onCurve (readP_writeP_other s hq R)).trans (hs q)

end

theorem onCurve_generator : onCurve generator = true := by decide +kernel

/-- Whatever the command and the state, the command ends well or fails. -/
theorem exec_ends (i : Instr) (s : State) : Ends (writes i) s (exec i s) := by
  have : Fact (Nat.Prime Config.p) := ⟨prime_p⟩
  cases i with
  | nop => exact ends_succeed (FrameBut.refl _ s) rfl rfl id
  | madd m vd va vb | msub m vd va vb | mmul m vd va vb =>
    exact ends_withBelow fun a _ => ends_withBelow fun b _ => ends_modular (List.mem_singleton_self vd) rfl _ _
  | msqr m vd va | mneg m vd va => exact ends_withBelow fun a _ => ends_modular (List.mem_singleton_self vd) rfl _ _
  | minv m vd va =>
    rw [exec, execMinv]
    refine ends_withBelow fun a _ => ?_
    split
    · exact .error .notInvertible
    · exact ends_modular (List.mem_singleton_self vd) rfl _ _
  | mred m vd va => exact ends_modular (List.mem_singleton_self vd) rfl _ _
  | mov vd _ | ldi vd _ | ldc vd _ => exact ends_load (List.mem_singleton_self vd) _
  | cmp _ _ | peq _ _ => exact ends_succeed ((FrameBut.refl _ s).setCompare rfl _ _) rfl rfl id
  | pld pd va vb =>
    rw [exec, execPld]
    refine ends_withBelow fun x hx => ends_withBelow fun y hy => ?_
    split
    next hcurve =>
      exact ends_point (List.mem_singleton_self pd) rfl _ fun _ => by simp [onCurve, hx, hy, hcurve]
    next => exact .error .notOnCurve
  | pinf pd => exact ends_point (List.mem_singleton_self pd) rfl _ fun _ => rfl
  | pgen pd => exact ends_point (List.mem_singleton_self pd) rfl _ fun _ => onCurve_generator
  | px vd pa =>
    rw [exec, execPx]
    split
    · exact .error .pointAtInfinity
    · exact ends_load (List.mem_singleton_self vd) _
  | py vd pa =>
    rw [exec, execPy]
    split
    · exact .error .pointAtInfinity
    · exact ends_load (List.mem_singleton_self vd) _
  | padd pd pa pb =>
    exact ends_point (List.mem_singleton_self pd) rfl _ fun hs => (addE_spec (hs pa) (hs pb)).1
  | pdbl pd pa => exact ends_point (List.mem_singleton_self pd) rfl _ fun hs => onCurve_dbl (hs pa)
  | ptpl pd pa pb =>
    exact ends_point (List.mem_singleton_self pd) rfl _ fun hs => (addE_spec (onCurve_dbl (hs pa)) (hs pb)).1
  | pneg pd pa => exact ends_point (List.mem_singleton_self pd) rfl _ fun hs => (negE_spec (hs pa)).1
  | pnorm pd pa => exact ends_point (List.mem_singleton_self pd) rfl _ fun hs => hs pa
  | ppow2 pd pa count =>
    exact ends_point (List.mem_singleton_self pd) rfl _ fun hs => onCurve_timesPow2 (hs pa) count
  | pmul alg pd pa vb =>
    exact ends_point (List.mem_singleton_self pd) rfl _ fun hs => onCurve_multiply alg (valueV_lt s vb) (hs pa)
  | denc va vb =>
    obtain ⟨t, ht, -⟩ := denc_completes va vb s
    rw [ht.runs]
    exact .well ht.ended ht.frame fun hs q => (congrArg onCurve (ht.frame.p q List.not_mem_nil)).trans (hs q)
  | ddec vd va =>
    rw [exec, execDdec]
    split
    · exact .error .operandConflict
    split
    · exact .error .derFormat
    split
    next c _ => exact .error c
    next r k _ =>
      exact ends_succeed (((FrameBut.refl _ s).writeV (List.mem_cons_self ..) _).writeV
        (List.mem_cons_of_mem _ (List.mem_singleton_self va)) _) rfl rfl id
  | lows vd va =>
    rw [exec, execLows]
    refine ends_withBelow fun x _ => ?_
    split <;>
      exact ends_succeed (((FrameBut.refl _ s).writeV (List.mem_singleton_self vd) _).setFlip rfl _) rfl rfl id
  | schk va vb => exact ends_succeed ((FrameBut.refl _ s).setRange rfl _ _) rfl rfl id

/-- Settles O11: a command that ends well keeps its frame, and one that fails keeps still more. -/
theorem commandsKeepTheirFrame : Obligations.CommandsKeepTheirFrame := by
  intro i s t hruns
  have hends := exec_ends i s
  rw [hruns] at hends
  cases hends with
  | well _ frame _ => exact frame
  | error c => exact FrameBut.failed _ s c

/-- Settles O10: a command that ends well leaves ERR at 0, so one that sets ERR has failed. -/
theorem errorsArePrecise : Obligations.ErrorsArePrecise := by
  intro i s t hclear hruns hset
  have hends := exec_ends i s
  rw [hruns] at hends
  cases hends with
  | well ended _ _ => exact absurd (ended.err.symm.trans hset) (by rw [hclear]; nofun)
  | error c => exact ⟨c, rfl, rfl⟩

/-! ## ENGINE's turn -/

/-- With or without an entry of the schedule, ENGINE's turn is a step of engineStep. -/
theorem step_nextEngine {s : State} {rest : List Turn} (h : NextEngine s rest) :
    step s = engineStep { s with schedule := rest } := by
  obtain ⟨hsilent, rfl⟩ | hturn := h.next
  · rw [step_silent hsilent, play_engine h.up, ← hsilent]
  · rw [step_turn hturn]
    exact play_engine (s := { s with schedule := rest }) h.up

/-- Settles O7: the turn is a step of engineStep, which runs the decoded word. -/
theorem stepRunsTheHeldCommand : Obligations.StepRunsTheHeldCommand := by
  intro s rest w i h hpending hdecode
  rw [step_nextEngine h]
  exact engineStep_legal (s := { s with schedule := rest }) hpending hdecode

/-- Settles O8: the turn is a step of engineStep, which fails an illegal word with its decode error. -/
theorem stepFailsAnIllegalWord : Obligations.StepFailsAnIllegalWord := by
  intro s rest w c h hpending hdecode
  rw [step_nextEngine h]
  exact engineStep_illegal (s := { s with schedule := rest }) hpending hdecode

/-- ENGINE ends every word it holds. -/
theorem engineStep_ends {s : State} {w : Word32} (h : s.pending = some w) : ∃ k, Ends k s (engineStep s) := by
  cases hdecode : decode w with
  | ok i => exact ⟨writes i, engineStep_legal h hdecode ▸ exec_ends i s⟩
  | error c => exact ⟨{}, engineStep_illegal h hdecode ▸ .error c⟩

/-- Settles O9: the held word ends well or fails; either completes the command and leaves IE alone. -/
theorem engineFinishesEveryCommand : Obligations.EngineFinishesEveryCommand := by
  intro s rest w h hpending
  obtain ⟨k, hends⟩ := engineStep_ends (s := { s with schedule := rest }) hpending
  rw [step_nextEngine h]
  generalize engineStep { s with schedule := rest } = o at hends
  cases hends with
  | @well t ended frame _ =>
    refine ⟨t, rfl, ended.busy, ended.done, ended.pending, ?_, .inl ⟨ended.err, ended.errcode⟩⟩
    rw [State.irq, ended.done, Bool.and_true, frame.ie]
  | error c => exact ⟨_, rfl, rfl, rfl, rfl, Bool.and_true s.ie, .inr ⟨c, rfl⟩⟩

end Sys2Proof.Machine
end

section
/-! PROOFS. What every step keeps: the moves of rst_n (70_reset_and_hazards.md R190), the invariant of the block, and
HOST's duty, under which no step stops. -/

namespace Sys2Proof.Machine

/-! ## Reset (R190) -/

theorem resetFalls_eq (s : State) : resetFalls s = ({ s with rstN := false } : State).resetBlock := rfl

theorem resetRises_of_held {s : State} (h : s.rstN = false) :
    resetRises s = ({ s with rstN := true } : State).resetBlock := by
  rw [resetRises, h]
  rfl

theorem resetRises_of_up {s : State} (h : s.rstN = true) : resetRises s = s := if_pos h

/-- While rst_n is 0 an engine turn leaves the block at its reset values. -/
theorem play_engine_eq_of_held {s : State} (h : s.rstN = false) :
    play .engine s = .next { State.reset with rstN := false, schedule := s.schedule, response := s.response } := by
  rw [play_engine_held h, State.resetBlock, h]

/-- Settles O57: every move of rst_n leaves the reset values and only what belongs to the ports; an access has no move
while rst_n is 0. -/
theorem hardwareReset : Obligations.HardwareReset := by
  intro s rest
  refine ⟨step_turn, fun hheld hturn => ?_, fun hheld hnext => ?_, fun a hheld hnext => ?_⟩
  · obtain ⟨hsilent, rfl⟩ | hengine := hturn
    · rw [step_silent hsilent, play_engine_eq_of_held hheld, hsilent]
    · rw [step_turn hengine]
      exact play_engine_eq_of_held (s := { s with schedule := rest }) hheld
  · rw [step_turn hnext]
    exact congrArg Host.Outcome.next (resetRises_of_held (s := { s with schedule := rest }) hheld)
  · rw [step_turn hnext]
    exact play_host_held (s := { s with schedule := rest }) hheld a

/-! ## The invariant -/

theorem inv_resetBlock (s : State) : s.resetBlock.Inv :=
  ⟨rfl, nofun, nofun, rfl, nofun, fun i => congrArg onCurve (reset_readP i), fun _ => rfl⟩

/-- Settles O58: the reset state is a block at its reset values. -/
theorem invariantAtReset : Obligations.InvariantAtReset := inv_resetBlock State.reset

section
variable {s t : State}

/-- The invariant does not speak of the ports. -/
theorem State.Inv.withPorts (h : s.Inv) (moves : List Turn) (answer : Option BusResponse) :
    ({ s with schedule := moves, response := answer } : State).Inv :=
  { h with
    points_on_curve := h.points_on_curve
    held_in_reset := fun hheld =>
      congrArg (fun u : State => { u with schedule := moves, response := answer }) (h.held_in_reset hheld) }

variable (h : s.Inv) (up : s.rstN = true)
include h up

/-- With rst_n at 1 the invariant speaks only of BUSY, DONE, ERR, ERRCODE, CMD_LAST, PENDING and the P registers. -/
theorem State.Inv.congr (hbusy : t.busy = s.busy) (hdone : t.done = s.done) (herr : t.err = s.err)
    (hcode : t.errcode = s.errcode) (hlast : t.cmdLast = s.cmdLast) (hpending : t.pending = s.pending)
    (hp : t.p = s.p) (hup : t.rstN = s.rstN) : t.Inv where
  busy_iff_pending := by rw [hbusy, hpending, h.busy_iff_pending]
  busy_not_done := by rw [hbusy, hdone]; exact h.busy_not_done
  busy_not_err := by rw [hbusy, herr]; exact h.busy_not_err
  err_iff_code := by rw [herr, hcode, h.err_iff_code]
  pending_is_last := by rw [hlast, hpending]; exact h.pending_is_last
  points_on_curve i := by rw [readP_congr hp]; exact h.points_on_curve i
  held_in_reset hheld := absurd ((hup.trans up).symm.trans hheld) nofun

theorem State.Inv.accept (herr : s.err = false) (w : Word32) : (s.accept w).Inv where
  busy_iff_pending := rfl
  busy_not_done _ := rfl
  busy_not_err _ := herr
  err_iff_code := h.err_iff_code
  pending_is_last _ hw := Option.some.inj hw
  points_on_curve := h.points_on_curve
  held_in_reset hheld := absurd (up.symm.trans hheld) nofun

/-- Clearing ERR clears ERRCODE with it (45_system.md R167). -/
theorem State.Inv.clearStatus (w : Word32) : (s.clearStatus w).Inv where
  busy_iff_pending := h.busy_iff_pending
  busy_not_done hbusy := by rw [State.clearStatus, h.busy_not_done hbusy, Bool.false_and]
  busy_not_err hbusy := by rw [State.clearStatus, h.busy_not_err hbusy, Bool.false_and]
  err_iff_code := by
    simp only [State.clearStatus, h.err_iff_code]
    cases w.getLsbD 2 <;> simp
  pending_is_last := h.pending_is_last
  points_on_curve := h.points_on_curve
  held_in_reset hheld := absurd (up.symm.trans hheld) nofun

theorem State.Inv.writeCmd (w : Word32) : (writeCmd w s).Inv := by
  rw [Machine.writeCmd]
  split
  next => exact h.congr up rfl rfl rfl rfl rfl rfl rfl rfl
  next hfree =>
    rw [Bool.or_eq_true, not_or, Bool.not_eq_true, Bool.not_eq_true] at hfree
    exact h.accept up hfree.2 w

theorem State.Inv.writeCtrl (w : Word32) : (writeCtrl w s).Inv := by
  rw [Machine.writeCtrl]
  split
  · exact inv_resetBlock s
  · exact h.congr up rfl rfl rfl rfl rfl rfl rfl rfl

theorem State.Inv.writeRegion (r : Region) (w : Word32) : (writeRegion r w s).Inv := by
  cases r with
  | id | reserved => exact h
  | ctrl => exact h.writeCtrl up w
  | status => exact h.clearStatus up w
  | cmd => exact h.writeCmd up w
  | dlen | vWord i j | dbufWord j => exact h.congr up rfl rfl rfl rfl rfl rfl rfl rfl

theorem State.Inv.serve (a : BusAccess) : (s.serve a).Inv := by
  obtain ⟨-, hserve⟩ | ⟨-, -, hserve⟩ | ⟨w, -, -, hserve⟩ := serve_cases s a <;> rw [hserve]
  · cases a.kind <;> exact h.withPorts s.schedule _
  · rw [readWord]
    split
    · exact h.congr up rfl rfl rfl rfl rfl rfl rfl rfl
    · exact h.withPorts s.schedule _
  · rw [writeWord]
    split
    · exact h.congr up rfl rfl rfl rfl rfl rfl rfl rfl
    · exact (h.writeRegion up _ w).withPorts _ _

/-- Both ends of a command leave nothing held, and ERR with a cause exactly when it is set. -/
theorem State.Inv.ends {k : Writes} (hends : Ends k s (.next t)) : t.Inv := by
  cases hends with
  | well ended frame curve =>
    exact {
      busy_iff_pending := by rw [ended.busy, ended.pending]; rfl
      busy_not_done := fun hbusy => absurd (ended.busy.symm.trans hbusy) nofun
      busy_not_err := fun hbusy => absurd (ended.busy.symm.trans hbusy) nofun
      err_iff_code := by rw [ended.err, ended.errcode, h.err_iff_code]
      pending_is_last := fun w hw => absurd (ended.pending.symm.trans hw) nofun
      points_on_curve := curve h.points_on_curve
      held_in_reset := fun hheld => absurd ((frame.rstN.trans up).symm.trans hheld) nofun }
  | error c =>
    exact ⟨rfl, nofun, nofun, rfl, nofun, h.points_on_curve, fun hheld => absurd (up.symm.trans hheld) nofun⟩

theorem State.Inv.engineStep (hstep : engineStep s = .next t) : t.Inv := by
  cases hpending : s.pending with
  | none =>
    rw [engineStep_idle hpending] at hstep
    exact Host.Outcome.next.inj hstep ▸ h
  | some w =>
    obtain ⟨k, hends⟩ := engineStep_ends hpending
    exact h.ends up (hstep ▸ hends)

omit up

theorem State.Inv.play {move : Turn} (hplay : play move s = .next t) : t.Inv := by
  cases move with
  | host a =>
    cases up : s.rstN with
    | false =>
      rw [play_host_held up] at hplay
      contradiction
    | true =>
      rw [play_host up] at hplay
      exact Host.Outcome.next.inj hplay ▸ h.serve up a
  | engine =>
    cases up : s.rstN with
    | false =>
      rw [play_engine_held up] at hplay
      exact Host.Outcome.next.inj hplay ▸ inv_resetBlock s
    | true =>
      rw [play_engine up] at hplay
      exact h.engineStep up hplay
  | rstFalls =>
    obtain rfl := Host.Outcome.next.inj hplay
    rw [resetFalls_eq]
    exact inv_resetBlock _
  | rstRises =>
    obtain rfl := Host.Outcome.next.inj hplay
    cases up : s.rstN with
    | false =>
      rw [resetRises_of_held up]
      exact inv_resetBlock _
    | true =>
      rw [resetRises_of_up up]
      exact h

end

/-- Settles O59: every step is one move, and each move keeps the invariant. -/
theorem invariantKept : Obligations.InvariantKept := by
  intro s t h hstep
  obtain ⟨-, hmove⟩ | ⟨move, rest, -, hmove⟩ := step_cases s <;> rw [hmove] at hstep
  · exact h.play hstep
  · exact (h.withPorts rest s.response).play hstep

/-! ## No step stops -/

/-- HOST's accesses leave rst_n and the moves still to come alone. -/
theorem writeRegion_keepsMoves (r : Region) (w : Word32) (s : State) :
    (writeRegion r w s).rstN = s.rstN ∧ (writeRegion r w s).schedule = s.schedule := by
  cases r with
  | id | reserved | status | dlen | vWord i j | dbufWord j => exact ⟨rfl, rfl⟩
  | ctrl => rw [writeRegion, writeCtrl]; split <;> exact ⟨rfl, rfl⟩
  | cmd => rw [writeRegion, writeCmd]; split <;> exact ⟨rfl, rfl⟩

theorem serve_keepsMoves (s : State) (a : BusAccess) :
    (s.serve a).rstN = s.rstN ∧ (s.serve a).schedule = s.schedule := by
  obtain ⟨-, hserve⟩ | ⟨-, -, hserve⟩ | ⟨w, -, -, hserve⟩ := serve_cases s a <;> rw [hserve]
  · cases a.kind <;> exact ⟨rfl, rfl⟩
  · rw [readWord]
    split <;> exact ⟨rfl, rfl⟩
  · rw [writeWord]
    split
    · exact ⟨rfl, rfl⟩
    · exact writeRegion_keepsMoves _ w s

/-- An engine turn never stops, and leaves rst_n and the moves still to come alone. -/
theorem engineStep_next (s : State) :
    ∃ t, engineStep s = .next t ∧ t.rstN = s.rstN ∧ t.schedule = s.schedule := by
  cases hpending : s.pending with
  | none => exact ⟨s, engineStep_idle hpending, rfl, rfl⟩
  | some w =>
    obtain ⟨k, hends⟩ := engineStep_ends hpending
    generalize engineStep s = o at hends
    cases hends with
    | @well t _ frame _ => exact ⟨t, rfl, frame.rstN, frame.schedule⟩
    | error c => exact ⟨_, rfl, rfl, rfl⟩

/-- The one move that can stop is an access while rst_n is 0, which HOST's duty excludes. -/
theorem play_next {s : State} {move : Turn} (hduty : hostDuty s.rstN (move :: s.schedule) = true) :
    ∃ t, play move s = .next t ∧ hostDuty t.rstN t.schedule = true := by
  cases move with
  | host a =>
    obtain ⟨up, hrest⟩ := Bool.and_eq_true_iff.mp hduty
    obtain ⟨hrstN, hschedule⟩ := serve_keepsMoves s a
    exact ⟨_, play_host up a, by rw [hrstN, hschedule]; exact hrest⟩
  | engine =>
    cases up : s.rstN with
    | false => exact ⟨_, play_engine_held up, hduty⟩
    | true =>
      obtain ⟨t, ht, hrstN, hschedule⟩ := engineStep_next s
      exact ⟨t, (play_engine up).trans ht, by rw [hrstN, hschedule]; exact hduty⟩
  | rstFalls => exact ⟨_, rfl, hduty⟩
  | rstRises =>
    refine ⟨_, rfl, ?_⟩
    cases up : s.rstN with
    | false => rw [resetRises_of_held up]; exact hduty
    | true => rw [resetRises_of_up up, up]; exact hduty

theorem step_next {s : State} (hduty : hostDuty s.rstN s.schedule = true) :
    ∃ t, step s = .next t ∧ hostDuty t.rstN t.schedule = true := by
  obtain ⟨-, hmove⟩ | ⟨move, rest, hnext, hmove⟩ := step_cases s <;> rw [hmove]
  · exact play_next (move := .engine) hduty
  · rw [hnext] at hduty
    exact play_next (s := { s with schedule := rest }) hduty

theorem run_succ_of_step {M : Host.Core} {s t : M.State} (k : Nat) (h : M.step s = .next t) :
    M.run (k + 1) s = M.run k t := by
  rw [Host.Core.run, h]

/-- Settles O60: a step under HOST's duty goes on and keeps the duty, so a run of any length goes on. -/
theorem machineNeverStops : Obligations.MachineNeverStops := by
  intro k
  induction k with
  | zero => exact fun s _ => ⟨s, rfl⟩
  | succ k ih =>
    intro s hduty
    obtain ⟨t, hstep, hduty'⟩ := step_next hduty
    obtain ⟨u, hrun⟩ := ih t hduty'
    exact ⟨u, (run_succ_of_step (M := core) k hstep).trans hrun⟩

end Sys2Proof.Machine
end

section
/-! PROOFS. What HOST sees of a command: the bits of a STATUS read (10_state.md R29), and that while BUSY = 1 an access
neither disturbs nor shows the command (20_memory.md R57, R65). -/

namespace Sys2Proof.Machine

open Sys2Proof.Laws

/-! ## The bits of a word built up bit by bit -/

/-- As far as l goes, it lists the bits of x from bit 0 on. -/
def HasBits {n : Nat} (x : BitVec n) (l : List Bool) : Prop :=
  ∀ k, k < l.length → x.getLsbD k = l.getD k false

theorem hasBits_zero (n m : Nat) : HasBits (0#n) (List.replicate m false) := by
  intro k hk
  rw [BitVec.getLsbD_zero, List.getD_eq_getElem _ _ hk, List.getElem_replicate]

section
variable {m n : Nat} {l : List Bool}

theorem getLsbD_append_add (x : BitVec n) (y : BitVec m) (k : Nat) : (x ++ y).getLsbD (m + k) = x.getLsbD k := by
  rw [BitVec.getLsbD_append, if_neg (by omega), Nat.add_sub_cancel_left]

theorem HasBits.append {y : BitVec m} (h : HasBits y l) (hl : l.length ≤ m) (x : BitVec n) : HasBits (x ++ y) l := by
  intro k hk
  rw [BitVec.getLsbD_append, if_pos (by omega), h k hk]

theorem HasBits.append_bit {x : BitVec n} (h : HasBits x l) (b : Bool) : HasBits (x ++ bit b) (b :: l) := by
  intro k hk
  cases k with
  | zero =>
    rw [BitVec.getLsbD_append, if_pos Nat.zero_lt_one]
    exact BitVec.getLsbD_ofBool b 0
  | succ k =>
    rw [List.getD_cons_succ, ← h k (Nat.lt_of_succ_lt_succ hk), Nat.add_comm k 1]
    exact getLsbD_append_add x (bit b) k

end

/-! ## STATUS -/

theorem statusWord_below_errcode (s : State) {k : Nat} (hk : k < 8) : (statusWord s).getLsbD k =
    (s.busy :: s.done :: s.err :: s.ovr :: List.replicate 4 false).getD k false := by
  rw [statusWord]
  exact (((((hasBits_zero 4 4).append (Nat.le_refl 4) _).append_bit _).append_bit _).append_bit _).append_bit _ k hk

theorem statusWord_above_errcode (s : State) {k : Nat} (hk : k < 16) : (statusWord s).getLsbD (16 + k) =
    (s.flagZ :: s.flagEq :: s.flagLt :: s.flagFlip :: s.flagSv :: s.flagLow :: List.replicate 10 false).getD k
      false := by
  rw [statusWord, show 16 + k = 1 + (1 + (1 + (1 + (4 + (8 + k))))) by omega]
  simp only [getLsbD_append_add]
  have hrange := ((hasBits_zero 10 10).append_bit s.flagLow).append_bit s.flagSv
  exact (((hrange.append_bit _).append_bit _).append_bit _).append_bit _ k hk

theorem statusWord_errcode (s : State) : (statusWord s).extractLsb' 8 8 = errorByte s.errcode := by
  rw [statusWord]
  refine (extract_append_high (k := 7) (len := 8) _ (bit s.busy)).trans ?_
  refine (extract_append_high (k := 6) (len := 8) _ (bit s.done)).trans ?_
  refine (extract_append_high (k := 5) (len := 8) _ (bit s.err)).trans ?_
  refine (extract_append_high (k := 4) (len := 8) _ (bit s.ovr)).trans ?_
  refine (extract_append_high (k := 0) (len := 8) _ 0#4).trans ?_
  exact extract_append_low _ _

/-- The bits of STATUS that R29 leaves out read as 0. -/
theorem statusWord_unused (s : State) {k : Nat} (hk : (4 ≤ k ∧ k < 8) ∨ 22 ≤ k) : (statusWord s).getLsbD k = false := by
  obtain ⟨h4, h8⟩ | h22 := hk
  · rw [statusWord_below_errcode s h8]
    interval_cases k <;> rfl
  rcases Nat.lt_or_ge k 32 with h32 | h32
  · obtain ⟨j, rfl⟩ := Nat.exists_eq_add_of_le (show 16 ≤ k by omega)
    rw [statusWord_above_errcode s (by omega)]
    obtain ⟨hlow, hhigh⟩ : 6 ≤ j ∧ j < 16 := by omega
    interval_cases j <;> rfl
  · exact BitVec.getLsbD_of_ge _ _ h32

/-- Settles O54: the read returns the STATUS word, whose fields stand in R29's places. -/
theorem statusReadLayout : Obligations.StatusReadLayout := by
  intro s rest h
  have low {k : Nat} := statusWord_below_errcode s (k := k)
  have high {k : Nat} := statusWord_above_errcode s (k := k)
  refine ⟨statusWord s, step_read_unlocked h (by decide) (by decide) (isLocked_of_notData rfl s), low (by decide),
    low (by decide), low (by decide), low (by decide), high (k := 0) (by decide), high (k := 1) (by decide),
    high (k := 2) (by decide), high (k := 3) (by decide), high (k := 4) (by decide), high (k := 5) (by decide),
    fun k => statusWord_unused s, ?_⟩
  rw [← Nat.shiftRight_eq_div_pow, ← BitVec.extractLsb'_toNat, statusWord_errcode]
  cases s.errcode with
  | none => rfl
  | some c => cases c <;> rfl

/-! ## Accesses while BUSY = 1 -/

section
variable {s : State}

/-- The operands, the results and the held command are as in s, and the command is still held. -/
def KeepsCommand (s t : State) : Prop :=
  t.v = s.v ∧ t.p = s.p ∧ t.dbuf = s.dbuf ∧ t.dlen = s.dlen ∧ t.pending = s.pending ∧ t.busy = true

theorem regionAt_eq_ctrl {off : Nat} (h : regionAt off = .ctrl) : off = 0x004 := by
  rw [regionAt] at h
  split_ifs at h
  assumption

/-- The word write that reaches CTRL is MemWrite(0x004, 4, w). -/
theorem eq_memWrite_ctrl {a : BusAccess} {w : Word32} (hword : isWordAccess a = true) (hkind : a.kind = .write w)
    (hctrl : regionAt a.offset.toNat = .ctrl) : a = memWrite 0x004 w := by
  obtain ⟨kind, offset, width, byteEnables⟩ := a
  obtain ⟨rfl, -, rfl⟩ := (isWordAccess_iff _).mp hword
  obtain rfl : offset = BitVec.ofNat 12 0x004 := BitVec.eq_of_toNat_eq (regionAt_eq_ctrl hctrl)
  obtain rfl : kind = .write w := hkind
  rfl

theorem isLocked_of_isData {r : Region} (hdata : isData r = true) (hbusy : s.busy = true) : isLocked r s = true := by
  rw [isLocked, hdata, hbusy]
  rfl

/-- The answer to a read while BUSY = 1: 0 for data, and the word for the registers that are never locked. -/
theorem response_readWord_of_busy (hbusy : s.busy = true) (r : Region) :
    (readWord r s).response = okData (if isData r then 0 else readRegion r s) := by
  cases hdata : isData r with
  | false => rw [readWord_unlocked (isLocked_of_notData hdata s), if_neg nofun]
  | true => rw [readWord_locked (isLocked_of_isData hdata hbusy), if_pos rfl]

variable (hbusy : s.busy = true)
include hbusy

theorem readWord_keepsCommand (r : Region) : KeepsCommand s (readWord r s) := by
  rw [readWord]
  split <;> exact ⟨rfl, rfl, rfl, rfl, rfl, hbusy⟩

/-- Only a soft reset reaches the command: the data is locked and CMD is refused. -/
theorem writeWord_keepsCommand {r : Region} {w : Word32} (hsrst : ¬(r = .ctrl ∧ w.getLsbD 1 = true)) :
    KeepsCommand s (writeWord r w s) := by
  cases r with
  | id | reserved | status => exact ⟨rfl, rfl, rfl, rfl, rfl, hbusy⟩
  | ctrl =>
    have hoff : w.getLsbD 1 = false := Bool.eq_false_of_not_eq_true fun h => hsrst ⟨rfl, h⟩
    rw [writeWord_unlocked (isLocked_of_notData rfl s), writeRegion, writeCtrl_enable hoff]
    exact ⟨rfl, rfl, rfl, rfl, rfl, hbusy⟩
  | cmd =>
    rw [writeWord_unlocked (isLocked_of_notData rfl s), writeRegion, writeCmd_refused (.inl hbusy)]
    exact ⟨rfl, rfl, rfl, rfl, rfl, hbusy⟩
  | dlen | vWord _ _ | dbufWord _ =>
    rw [writeWord_locked (isLocked_of_isData rfl hbusy)]
    exact ⟨rfl, rfl, rfl, rfl, rfl, hbusy⟩

theorem serve_keepsCommand (a : BusAccess) :
    KeepsCommand s (s.serve a) ∨ ∃ w, a = memWrite 0x004 w ∧ w.getLsbD 1 = true := by
  obtain ⟨-, hserve⟩ | ⟨-, -, hserve⟩ | ⟨w, hword, hkind, hserve⟩ := serve_cases s a <;> rw [hserve]
  · left
    cases a.kind <;> exact ⟨rfl, rfl, rfl, rfl, rfl, hbusy⟩
  · exact .inl (readWord_keepsCommand hbusy _)
  · by_cases hsrst : regionAt a.offset.toNat = .ctrl ∧ w.getLsbD 1 = true
    · obtain ⟨hctrl, hbit⟩ := hsrst
      exact .inr ⟨w, eq_memWrite_ctrl hword hkind hctrl, hbit⟩
    · exact .inl (writeWord_keepsCommand hbusy hsrst)

/-- The registers that are never locked do not show the operands, the results or the held command. -/
theorem readWord_hides (r : Region) (v : Vector Word256 16) (p : Vector Point 16) (dbuf : Vector Byte 80)
    (dlen : BitVec 7) (pending : Option Word32) :
    (readWord r { s with v := v, p := p, dbuf := dbuf, dlen := dlen, pending := pending }).response =
      (readWord r s).response := by
  rw [response_readWord_of_busy hbusy r]
  refine (response_readWord_of_busy ?_ r).trans ?_
  · exact hbusy
  · cases r <;> rfl

end

/-- Settles O55: an access that reaches the command is a soft reset, and only a read's answer could show data. -/
theorem busyHidesTheCommand : Obligations.BusyHidesTheCommand := by
  intro s a hbusy
  refine ⟨serve_keepsCommand hbusy a, fun v p dbuf dlen pending => ?_⟩
  rw [State.serve, State.serve]
  split
  · cases a.kind with
    | read => exact readWord_hides hbusy _ v p dbuf dlen pending
    | write w => rfl
  · cases a.kind <;> rfl

end Sys2Proof.Machine
end
